-- ==== Sys2Proof/Word.lean ====
section
/-! DEFINITION. The words of the block: registers and command words of 32 bits, timestamps and
intervals held in 32 bits, and the 11-bit offset into the register window. -/

namespace Sys2Proof

/-- A register or a command word: every register is 32 bits (10_state.md, section 4). -/
abbrev Word := BitVec 32

/-- One byte lane of the host's bus (20_memory.md R74). -/
abbrev Byte := BitVec 8

/-- A timestamp of W bits, W at most 32, held in 32 bits with a value below 2^W
(00_scope.md R8, 10_state.md R34 and R42; log entry 20). -/
abbrev Tick := BitVec 32

/-- An interval of the capture buffer: a 32-bit unsigned value (10_state.md R33). -/
abbrev Interval := BitVec 32

/-- A byte offset into the 2 KiB register window (20_memory.md R70; the table's 11-bit `off`). -/
abbrev Offset := BitVec 11

end Sys2Proof
end

