-- ==== Sys2Proof/Machine/Event.lean ====
section
/-! DEFINITION. What reaches the block from outside: edges, bus accesses and the platform's reset
(30_encoding.md R100, 70_reset_and_hazards.md R270), as plain data in their order of arrival. -/

namespace Sys2Proof.Machine

/-- The two forms in which an operation reaches the block (30_encoding.md R100): an edge, which
carries no bits (R105), or a bus access at a host address (R110 `lw`, `sw`, `sh`, `sb`, `lh`, `lb`). -/
inductive Stimulus where
  /-- A transition of the input line, rising or falling alike (40_capture.md R120). -/
  | edge
  /-- `MemRead(addr, width)`. -/
  | read (addr : Nat) (width : Nat)
  /-- `MemWrite(addr, width, value)`. -/
  | write (addr : Nat) (width : Nat) (value : Word)
deriving DecidableEq, Repr

/-- An event at the block: an operation's stimulus, or the platform's reset input (70_reset_and_hazards.md R270). -/
inductive Event where
  | operation (o : Stimulus)
  | reset
deriving DecidableEq, Repr

/-- An event together with the microseconds that passed since the one before it, which is all the
time the model has (70_reset_and_hazards.md R282; log entry 3). -/
structure Arrival where
  elapsed : Nat
  event : Event
deriving DecidableEq, Repr

end Sys2Proof.Machine
end

