-- ==== Sys2Proof/Config.lean ====
section
/-! DEFINITION. The parameters of 00_scope.md R8 as plain data, the constraints a legal
configuration meets (R8, R9), the reference values, and the spec's own example key table. -/

namespace Sys2Proof

/-- One entry of KEY_TABLE: a key's name and its canonical 32-bit code (00_scope.md R8, 42_resolver.md R195). -/
structure KeyEntry where
  name : String
  code : Word
deriving DecidableEq, Repr

/-- Which of the two overlapping space windows is tested first (41_decoder.md R152).
The spec fixes `oneFirst` (log entry 19). -/
inductive SpacePriority where
  | oneFirst
  | zeroFirst
deriving DecidableEq, Repr

/-- The block's parameters, one field for each row of the table of 00_scope.md R8, in its order.
They are fixed before reset and nothing changes them (R7); they are not state (10_state.md R46; log entry 5). -/
structure Config where
  /-- W (TICK_BITS) -/
  tickBits : Nat
  /-- MAX_GAP -/
  maxGap : Nat
  /-- TOL -/
  tol : Nat
  /-- T_HDR_MARK -/
  hdrMark : Nat
  /-- T_HDR_SPACE -/
  hdrSpace : Nat
  /-- T_BIT_MARK -/
  bitMark : Nat
  /-- T_ONE_SPACE -/
  oneSpace : Nat
  /-- T_ZERO_SPACE -/
  zeroSpace : Nat
  /-- MIN_PULSES -/
  minPulses : Nat
  /-- N_BUF -/
  nBuf : Nat
  /-- KEY_TABLE, in table order -/
  keyTable : List KeyEntry
  /-- SPACE_PRIORITY -/
  spacePriority : SpacePriority
  /-- TRAILER_INDEX -/
  trailerIndex : Nat
  /-- BASE, the host address of the register window -/
  base : Nat
deriving DecidableEq, Repr

namespace Config

/-- K, the number of KEY_TABLE entries. -/
def keyCount (cfg : Config) : Nat := cfg.keyTable.length

/-- The constraint `T + TOL <= MAX_GAP` on one nominal duration (00_scope.md R8, decision D33). -/
def nominalFits (cfg : Config) (t : Nat) : Bool := decide (t + cfg.tol ≤ cfg.maxGap)

/-- The constraints of the table of 00_scope.md R8, row by row. -/
def constraints (cfg : Config) : List Bool :=
  [decide (8 ≤ cfg.tickBits), decide (cfg.tickBits ≤ 32),
    decide (1 ≤ cfg.maxGap), decide (cfg.maxGap ≤ 2 ^ cfg.tickBits),
    cfg.nominalFits cfg.hdrMark, cfg.nominalFits cfg.hdrSpace, cfg.nominalFits cfg.bitMark,
    cfg.nominalFits cfg.oneSpace, cfg.nominalFits cfg.zeroSpace,
    decide (68 ≤ cfg.minPulses),
    decide (68 ≤ cfg.nBuf), decide (cfg.nBuf ≤ 256),
    decide (1 ≤ cfg.keyCount), decide (cfg.keyCount ≤ 65535),
    decide (cfg.spacePriority = .oneFirst), decide (cfg.trailerIndex = 66),
    decide (cfg.base % 2048 = 0)]

/-- Every constraint holds. A configuration that breaks one describes no IRCAP block and is given no
meaning (R9; log entry 7). -/
def wf (cfg : Config) : Bool := cfg.constraints.all id

/-- The spec's own example table T_EX (95_test_vectors.md). KEY_TABLE is OPEN: this is not the
repository's table. -/
def exampleTable : List KeyEntry :=
  [⟨"K0", 0x00000000#32⟩, ⟨"OK", 0x00FF38C7#32⟩, ⟨"K2", 0x00FF38C9#32⟩, ⟨"K3", 0x00FF38C5#32⟩,
    ⟨"K4", 0xFFFFFFFF#32⟩]

/-- The reference values of 00_scope.md R8 (decision D35). For the two OPEN parameters:
DESIGN CHOICE the table T_EX and BASE = 0 (log entry 6, unsafe). -/
def reference : Config where
  tickBits := 32
  maxGap := 100000
  tol := 1000
  hdrMark := 9000
  hdrSpace := 4500
  bitMark := 560
  oneSpace := 1600
  zeroSpace := 560
  minPulses := 68
  nBuf := 128
  keyTable := exampleTable
  spacePriority := .oneFirst
  trailerIndex := 66
  base := 0

/-- The condition 00_scope.md R10 puts on KEY_TABLE for the source's end-to-end scenario, as it
stands there: some entry is "OK" with code 0x00FF38C7, no entry before it has code 0x00FF38C6,
0x00FF38C7 or 0x00FF38C8, and no entry anywhere has code 0x00FF38C6. It constrains no
configuration (log entry 15). -/
def meetsR10 (cfg : Config) : Prop :=
  ∃ before after, cfg.keyTable = before ++ ⟨"OK", 0x00FF38C7#32⟩ :: after
    ∧ (∀ e ∈ before, e.code ≠ 0x00FF38C6#32 ∧ e.code ≠ 0x00FF38C7#32 ∧ e.code ≠ 0x00FF38C8#32)
    ∧ ∀ e ∈ cfg.keyTable, e.code ≠ 0x00FF38C6#32

end Config

end Sys2Proof
end

