-- ==== Sys2Proof/Syntax.lean ====
section
/-! DEFINITION. The operations of the block, one constructor for each row of spec/opcode_table.json. -/

namespace Sys2Proof

/-- The block's operations: the edge event, the words of command format C (30_encoding.md R101 to R103)
and the two bus accesses (43_host_access.md R210, R211). -/
inductive Instr where
  /-- EDGE: a transition of the input line; `now` is the sample of TICKS at the edge (40_capture.md R121, R122). -/
  | edge (now : Tick)
  /-- NOP: the command word 0x00000000 (43_host_access.md R213). -/
  | nop
  /-- TAKE: the command word 0x00000001 (40_capture.md R129). -/
  | take
  /-- DECODE: the command word 0x00000002 (41_decoder.md R154). -/
  | decode
  /-- RESOLVE: the command word 0x00000003 (42_resolver.md R191). -/
  | resolve
  /-- ILLEGAL: any other word written to CMD (43_host_access.md R214). -/
  | illegal (word : Word)
  /-- RD: a host read of `width` bytes at offset `off` (43_host_access.md R210). -/
  | rd (off : Offset) (width : Nat)
  /-- WR: a host write of `width` bytes of `value` at offset `off` (43_host_access.md R211). -/
  | wr (off : Offset) (width : Nat) (value : Word)
deriving DecidableEq, Repr

end Sys2Proof
end

