-- ==== Sys2Proof/WellFormed.lean ====
section
/-! DEFINITION. Which operations are well formed under a configuration. -/

namespace Sys2Proof

/-- The four legal command words, exactly (30_encoding.md R103). -/
def legalCommandWords : List Word := [0x00000000#32, 0x00000001#32, 0x00000002#32, 0x00000003#32]

/-- An operation is well formed when its operands are those its row of the opcode table admits:
EDGE's timestamp has W bits (40_capture.md R121), ILLEGAL's word is none of the four legal ones
(30_encoding.md R103). RD and WR take every offset, width and value: a bad one is a BusFault and
not another operation (43_host_access.md R210, R211). -/
def Instr.wf (cfg : Config) : Instr → Bool
  | .edge now => decide (now.toNat < 2 ^ cfg.tickBits)
  | .nop => true
  | .take => true
  | .decode => true
  | .resolve => true
  | .illegal word => !legalCommandWords.contains word
  | .rd _ _ => true
  | .wr _ _ _ => true

end Sys2Proof
end

