-- ==== Sys2Proof/Decode.lean ====
section
/-! DEFINITION. From bits and bus accesses to operations and back: the command word of
30_encoding.md R101 to R103, its byte lanes (20_memory.md R74), the stimulus of R100, and the
encoder written from the same tables. -/

namespace Sys2Proof

open Sys2Proof.Machine

/-- Field OP of a command word, bits 3:0 (30_encoding.md R101). -/
def commandOp (w : Word) : BitVec 4 := w.extractLsb' 0 4

/-- Field RSV of a command word, bits 31:4 (30_encoding.md R101). -/
def commandRsv (w : Word) : BitVec 28 := w.extractLsb' 4 28

/-- The operation a command word selects (30_encoding.md R102). Every word with RSV != 0 and every
OP from 4 to 15 is ILLEGAL, never a neighbouring opcode (R103). -/
def decodeCommand (w : Word) : Instr :=
  if commandRsv w = 0#28 then
    if commandOp w = 0#4 then .nop
    else if commandOp w = 1#4 then .take
    else if commandOp w = 2#4 then .decode
    else if commandOp w = 3#4 then .resolve
    else .illegal w
  else .illegal w

/-- Byte lane j of a register word carries its bits 8j+7 to 8j (20_memory.md R74). -/
def laneOf (w : Word) (j : Nat) : Byte := w.extractLsb' (8 * j) 8

/-- The four byte lanes of a word, the lane of the lowest address first. -/
def lanesOf (w : Word) : List Byte := [laneOf w 0, laneOf w 1, laneOf w 2, laneOf w 3]

/-- Why a sequence of bytes is no command word: a command is one 32-bit word, with no shorter and no
longer form (30_encoding.md R109). -/
inductive DecodeError where
  | notFourBytes (count : Nat)
deriving DecidableEq, Repr

/-- The word that four byte lanes carry, the lane of the lowest address first (20_memory.md R74). -/
def wordOfLanes : List Byte → Except DecodeError Word
  | [b0, b1, b2, b3] => .ok (b3 ++ b2 ++ b1 ++ b0)
  | bs => .error (.notFourBytes bs.length)

/-- Decoding of a command as the bytes of its word lie on the bus; total, and rejecting by name. -/
def decodeLanes (bs : List Byte) : Except DecodeError Instr :=
  match wordOfLanes bs with
  | .ok w => .ok (decodeCommand w)
  | .error e => .error e

/-- Why a bus access is no operation of this block. -/
inductive BusError where
  /-- The address lies outside the register window, where the platform answers (20_memory.md R85; log entry 9). -/
  | outsideWindow (addr : Nat)
deriving DecidableEq, Repr

/-- The offset a host address has in the window at BASE, if it lies in the window's 2048 bytes
(20_memory.md R70; log entry 10). -/
def windowOffset (cfg : Config) (addr : Nat) : Option Offset :=
  if cfg.base ≤ addr ∧ addr < cfg.base + 2048 then some (BitVec.ofNat 11 (addr - cfg.base)) else none

/-- The offset of the command register CMD (10_state.md R47). -/
def cmdOffset : Offset := 0x000#11

/-- Whether a write at `off` of `width` bytes is a legal write to CMD, which carries a command word
(30_encoding.md R100, R103). -/
def isCommandWrite (off : Offset) (width : Nat) : Bool := decide (width = 4) && decide (off = cmdOffset)

/-- The operation an operation performs: a legal write to CMD performs the command its word selects
(43_host_access.md R212), every other operation itself (log entry 11). -/
def Instr.performs : Instr → Instr
  | .wr off width value => if isCommandWrite off width then decodeCommand value else .wr off width value
  | .edge now => .edge now
  | .nop => .nop
  | .take => .take
  | .decode => .decode
  | .resolve => .resolve
  | .illegal word => .illegal word
  | .rd off width => .rd off width

/-- The operation of a stimulus (30_encoding.md R100): an edge is EDGE with `ticks`, the value TICKS
has at the edge, as its operand (R105); a legal write to CMD is the command its word selects; every
other access in the window is RD or WR. -/
def decodeStimulus (cfg : Config) (ticks : Tick) : Stimulus → Except BusError Instr
  | .edge => .ok (.edge ticks)
  | .read addr width =>
    match windowOffset cfg addr with
    | some off => .ok (.rd off width)
    | none => .error (.outsideWindow addr)
  | .write addr width value =>
    match windowOffset cfg addr with
    | some off => .ok (Instr.wr off width value).performs
    | none => .error (.outsideWindow addr)

/-- The command word of an operation of format C (30_encoding.md R102); EDGE, RD and WR have none (R100, R105). -/
def encodeCommand : Instr → Option Word
  | .edge _ => none
  | .nop => some 0x00000000#32
  | .take => some 0x00000001#32
  | .decode => some 0x00000002#32
  | .resolve => some 0x00000003#32
  | .illegal word => some word
  | .rd _ _ => none
  | .wr _ _ _ => none

/-- The host address of an offset of the window (20_memory.md R70). -/
def hostAddress (cfg : Config) (off : Offset) : Nat := cfg.base + off.toNat

/-- The write of a command word to CMD (30_encoding.md R101, R110 `sw V, CMD`). -/
def commandWrite (cfg : Config) (w : Word) : Stimulus := .write (hostAddress cfg cmdOffset) 4 w

/-- The stimulus that performs an operation, from the encoding column of the opcode table. -/
def encode (cfg : Config) : Instr → Stimulus
  | .edge _ => .edge
  | .nop => commandWrite cfg 0x00000000#32
  | .take => commandWrite cfg 0x00000001#32
  | .decode => commandWrite cfg 0x00000002#32
  | .resolve => commandWrite cfg 0x00000003#32
  | .illegal word => commandWrite cfg word
  | .rd off width => .read (hostAddress cfg off) width
  | .wr off width value => .write (hostAddress cfg off) width value

/-- The command word that a table row of `nbits` bits with the bits `w` stands for: bits above `nbits` are 0. -/
def tableWord (nbits w : Nat) : Word := BitVec.ofNat 32 (w % 2 ^ nbits)

/-- The operation the decoder reads from the command word of a table row. A row with no bits (an edge
event, a bus access) has no command word, and no command is longer than 32 bits (30_encoding.md R109). -/
def decodeTableWord (nbits w : Nat) : Option Instr :=
  if nbits = 0 ∨ 32 < nbits then none
  else
    match decodeLanes (lanesOf (tableWord nbits w)) with
    | .ok i => some i
    | .error _ => none

end Sys2Proof
end

