-- ==== Sys2Proof/Machine/State.lean ====
section
/-! DEFINITION. The state of the block (10_state.md R33 to R42), the model's own fields beside it,
the reasons a step can stop, and the state after reset (70_reset_and_hazards.md R270). -/

namespace Sys2Proof.Machine

/-- OUTCOME, the result of the last DECODE (30_encoding.md R106). The value 7 is never produced, so it has no name here. -/
inductive DecodeOutcome where
  | none
  | ok
  | insufficientPulses
  | invalidHeader
  | bitMarkMismatch
  | bitSpaceMismatch
  | invalidTrailer
deriving DecidableEq, Repr

/-- The causes of a fault of the block (60_exceptions.md R234). A fault is a sticky bit and the block goes on (R236). -/
inductive FaultCause where
  | bus
  | command
deriving DecidableEq, Repr

/-- Reasons for which the machine stops with a fault: there are none, and nothing raises one. No
operation traps, halts or resets the block (60_exceptions.md R230); BusFault and IllegalCommand set a
sticky bit in a NEXT state (R236). The empty type is safe: it claims no more than R230 says (log entry 12). -/
inductive Fault : Type
deriving DecidableEq, Repr

/-- Reasons for which a step has no meaning. -/
inductive Refusal where
  /-- Raised by an arm of `exec` whose instruction has no meaning yet; no arm is one now. Safe. -/
  | notModelled (mnemonic : String)
  /-- Raised by every meaning and every step on a configuration that breaks 00_scope.md R8: it describes
  no IRCAP block (R9; log entry 7). Safe. -/
  | illFormedConfig
  /-- Raised by `step` on a bus access outside the block's window, which belongs to the platform
  (20_memory.md R85; log entry 9). Safe. -/
  | outsideWindow (addr : Nat)
deriving DecidableEq, Repr

/-- The state. CNT and SNAP_COUNT are the lengths of `buf` and `snap` (10_state.md R33, R36). -/
structure State where
  /-- The parameters (00_scope.md R8): configuration and not state, written by nothing (R7; log entry 5). -/
  cfg : Config
  /-- BUF (R33), the oldest interval first -/
  buf : List Interval
  /-- PREV_VALID (R34) -/
  prevValid : Bool
  /-- PREV_TIME (R34) -/
  prevTime : Tick
  /-- OVF (R35) -/
  ovf : Bool
  /-- SNAP (R36) -/
  snap : List Interval
  /-- SNAP_OVF (R37) -/
  snapOvf : Bool
  /-- OUTCOME (R38) -/
  outcome : DecodeOutcome
  /-- FAIL_INDEX (R38) -/
  failIndex : BitVec 7
  /-- CODE (R39) -/
  code : Word
  /-- KEY (R40) -/
  key : BitVec 16
  /-- DIST (R40) -/
  dist : Word
  /-- FAULT_CMD (R41) -/
  faultCmd : Bool
  /-- FAULT_BUS (R41) -/
  faultBus : Bool
  /-- TICKS (R42) -/
  ticks : Tick
  /-- The model's own: the arrivals still to come, the next one first (log entry 1). -/
  arrivals : List Arrival
  /-- The model's own: the value the host's last read returned (43_host_access.md R210; log entry 8). -/
  rdData : Word
deriving DecidableEq, Repr

/-- CNT (R33). -/
def State.cnt (s : State) : Nat := s.buf.length

/-- SNAP_COUNT (R36). -/
def State.snapCount (s : State) : Nat := s.snap.length

/-- The state right after reset of a block with parameters `cfg` while TICKS holds `ticks`: reset
changes neither (70_reset_and_hazards.md R270, R271). -/
def State.resetWith (cfg : Config) (ticks : Tick) : State where
  cfg := cfg
  buf := []
  prevValid := false
  prevTime := 0#32
  ovf := false
  snap := []
  snapOvf := false
  outcome := .none
  failIndex := 0#7
  code := 0#32
  key := 0#16
  dist := 0#32
  faultCmd := false
  faultBus := false
  ticks := ticks
  arrivals := []
  rdData := 0#32

/-- The state right after reset of the block with the reference parameters. DESIGN CHOICE: TICKS, whose
value after reset is unspecified (70_reset_and_hazards.md R271), is 0 (log entry 4, unsafe), and the
OPEN parameters are T_EX and BASE = 0 (log entry 6, unsafe). -/
def State.reset : State := State.resetWith Config.reference 0#32

end Sys2Proof.Machine
end

