-- ==== Sys2Proof/Machine/Ops.lean ====
section
/-! DEFINITION. The shared operations: the one guard on the configuration, each write of the state
elements that an operation's pseudocode makes, raising a fault, asserting reset, and the passing of
time. Each element has one writer here (10_state.md R43). -/

namespace Sys2Proof.Machine

/-- The common outcome type of every meaning. -/
abbrev Result := Host.Outcome State Fault Refusal

/-- An operation's effect, given only under a legal configuration (00_scope.md R9; log entry 7). -/
def configured (effect : State → State) (s : State) : Result :=
  if s.cfg.wf then .next (effect s) else .refused .illFormedConfig

/-! ### Edge capture (40_capture.md R122, R129) -/

/-- `PREV_TIME <- now`, `PREV_VALID <- 1`: the baseline moves at every edge (R126). -/
def setBaseline (now : Tick) (s : State) : State := { s with prevValid := true, prevTime := now }

/-- `BUF <- BUF ++ [delta]`, and with it CNT. -/
def appendInterval (delta : Interval) (s : State) : State := { s with buf := s.buf ++ [delta] }

/-- `OVF <- 1` (R127). -/
def setOverflow (s : State) : State := { s with ovf := true }

/-- The exchange of TAKE as one indivisible write (R129, R130); PREV_TIME stays as it is. -/
def exchangeBuffer (s : State) : State :=
  { s with snap := s.buf, snapOvf := s.ovf, buf := [], ovf := false, prevValid := false }

/-! ### Results -/

/-- DECODE's writes: OUTCOME, FAIL_INDEX and CODE together (41_decoder.md R154, R155). -/
def writeDecode (outcome : DecodeOutcome) (index : BitVec 7) (code : Word) (s : State) : State :=
  { s with outcome := outcome, failIndex := index, code := code }

/-- RESOLVE's writes: KEY and DIST (42_resolver.md R191). -/
def writeMatch (key : BitVec 16) (dist : Word) (s : State) : State := { s with key := key, dist := dist }

/-- The host's write of CODE (43_host_access.md R215). -/
def writeCode (v : Word) (s : State) : State := { s with code := v }

/-- The value a host read returns (43_host_access.md R210; log entry 8). -/
def returnData (v : Word) (s : State) : State := { s with rdData := v }

/-! ### Faults: this block's taking of an exception -/

/-- `raise Fault(cause)`: the STATUS bit of the cause is set and nothing else happens. Nothing is
saved, no mode changes and control goes nowhere (60_exceptions.md R235, R236, R242); there is no
return from it, and only reset clears the bit (R237, R243). -/
def raiseFault (cause : FaultCause) (s : State) : State :=
  match cause with
  | .bus => { s with faultBus := true }
  | .command => { s with faultCmd := true }

/-! ### Reset and time -/

/-- The platform's reset: every state element takes its reset value; the parameters and TICKS do not
change (70_reset_and_hazards.md R270, R271). The model's own fields are not the block's and stay (log entry 13). -/
def assertReset (s : State) : State :=
  { State.resetWith s.cfg s.ticks with arrivals := s.arrivals, rdData := s.rdData }

/-- TICKS after `elapsed` microseconds: it advances by one each microsecond and wraps from 2^W - 1 to 0
(10_state.md R42). -/
def ticksAfter (cfg : Config) (t : Tick) (elapsed : Nat) : Tick :=
  BitVec.ofNat 32 ((t.toNat + elapsed) % 2 ^ cfg.tickBits)

/-- An arrival is taken from the list and its microseconds have passed (log entries 1, 3). -/
def takeArrival (elapsed : Nat) (rest : List Arrival) (s : State) : State :=
  { s with ticks := ticksAfter s.cfg s.ticks elapsed, arrivals := rest }

end Sys2Proof.Machine
end

