-- ==== Sys2Proof/Machine/Capture.lean ====
section
/-! DEFINITION. Edge Capture: EDGE and TAKE (40_capture.md). -/

namespace Sys2Proof.Machine

/-- `delta = (now - PREV_TIME) mod 2^W`, unsigned (R123). W is at most 32, so the difference taken
modulo 2^32 and then modulo 2^W is the one the rule names. -/
def tickDelta (cfg : Config) (now prev : Tick) : Interval :=
  BitVec.ofNat 32 ((now - prev).toNat % 2 ^ cfg.tickBits)

/-- What an edge does with the interval it has measured: an idle gap is discarded without a trace
(R124), a full buffer drops the interval and sets OVF (R127), else it is appended. -/
def recordInterval (delta : Interval) (s : State) : State :=
  if delta.toNat < s.cfg.maxGap then
    if s.cnt < s.cfg.nBuf then appendInterval delta s else setOverflow s
  else s

/-- EDGE(now): the first edge since reset or TAKE only sets the baseline (R125), every other records
its interval first; the baseline moves in every case (R126). -/
def captureEdge (now : Tick) (s : State) : State :=
  if s.prevValid then setBaseline now (recordInterval (tickDelta s.cfg now s.prevTime) s)
  else setBaseline now s

/-- EDGE (R122). It never faults and is enabled in every state of the block (R128). -/
def execEdge (now : Tick) (s : State) : Result := configured (captureEdge now) s

/-- TAKE (R129). -/
def execTake (s : State) : Result := configured exchangeBuffer s

end Sys2Proof.Machine
end

