-- ==== Sys2Proof/Machine/Decoder.lean ====
section
/-! DEFINITION. The NEC Decoder: MATCH and DECODE (41_decoder.md). -/

namespace Sys2Proof.Machine

/-- MATCH(v, t): the open window of TOL around t, on unbounded integers, so that t - TOL never wraps
(R150, decision D30). -/
def matchNominal (cfg : Config) (v : Interval) (t : Nat) : Bool :=
  decide ((t : Int) - cfg.tol < v.toNat) && decide ((v.toNat : Int) < t + cfg.tol)

/-- The reasons DECODE fails (60_exceptions.md R231). -/
inductive FailReason where
  | insufficientPulses
  | invalidHeader
  | bitMarkMismatch
  | bitSpaceMismatch
  | invalidTrailer
deriving DecidableEq, Repr

/-- A failure as DECODE reports it: the reason, and the snapshot index that FAIL_INDEX takes (R155, 30_encoding.md R107). -/
structure Failure where
  reason : FailReason
  index : Nat
deriving DecidableEq, Repr

/-- The bit a space interval carries, or none where it matches neither space. The two windows overlap,
and the symbol that SPACE_PRIORITY names is tested first (R152, R160). -/
def readSpace (cfg : Config) (v : Interval) : Option Bool :=
  match cfg.spacePriority with
  | .oneFirst =>
    if matchNominal cfg v cfg.oneSpace then some true
    else if matchNominal cfg v cfg.zeroSpace then some false
    else none
  | .zeroFirst =>
    if matchNominal cfg v cfg.zeroSpace then some false
    else if matchNominal cfg v cfg.oneSpace then some true
    else none

/-- `((code << 1) + bit) mod 2^32`, MSB-first (R160, R161). -/
def shiftIn (code : Word) (bit : Bool) : Word := (code <<< 1) + (BitVec.ofBool bit).setWidth 32

/-- Interval k of the snapshot. DECODE reads one only where step 1 has found it to exist, so the 0 is
never read under a legal configuration (R154, R156; log entry 24). -/
def pulseAt (p : List Interval) (k : Nat) : Interval := p.getD k 0#32

/-- Step 3 of R154 for `pairs` more mark and space pairs from index i on: the mark at i, then the space
at i + 1, and the first check that fails decides (R159, R160, R164). -/
def decodeBits (cfg : Config) (p : List Interval) : (pairs i : Nat) → (code : Word) → Except Failure Word
  | 0, _, code => .ok code
  | pairs + 1, i, code =>
    if matchNominal cfg (pulseAt p i) cfg.bitMark then
      match readSpace cfg (pulseAt p (i + 1)) with
      | some bit => decodeBits cfg p pairs (i + 2) (shiftIn code bit)
      | none => .error ⟨.bitSpaceMismatch, i + 1⟩
    else .error ⟨.bitMarkMismatch, i⟩

/-- decodeFn(SNAP): the length, the header, 32 pairs from index 2 on, the stop burst at TRAILER_INDEX,
in this order (R153, R154, R164). Nothing else is checked (R165). -/
def decodeFn (cfg : Config) (p : List Interval) : Except Failure Word :=
  if p.length < cfg.minPulses then .error ⟨.insufficientPulses, 0⟩
  else if matchNominal cfg (pulseAt p 0) cfg.hdrMark && matchNominal cfg (pulseAt p 1) cfg.hdrSpace then
    match decodeBits cfg p 32 2 0#32 with
    | .error f => .error f
    | .ok code =>
      if matchNominal cfg (pulseAt p cfg.trailerIndex) cfg.bitMark then .ok code
      else .error ⟨.invalidTrailer, 0⟩
  else .error ⟨.invalidHeader, 0⟩

/-- The OUTCOME of a failure (60_exceptions.md R231). -/
def outcomeOf : FailReason → DecodeOutcome
  | .insufficientPulses => .insufficientPulses
  | .invalidHeader => .invalidHeader
  | .bitMarkMismatch => .bitMarkMismatch
  | .bitSpaceMismatch => .bitSpaceMismatch
  | .invalidTrailer => .invalidTrailer

/-- DECODE's writes for a verdict: success keeps the code (R163), a failure leaves CODE at 0, so that no
partial code is ever seen (R155). -/
def reportVerdict (verdict : Except Failure Word) (s : State) : State :=
  match verdict with
  | .ok code => writeDecode .ok 0#7 code s
  | .error f => writeDecode (outcomeOf f.reason) (BitVec.ofNat 7 f.index) 0#32 s

/-- DECODE reads SNAP and never BUF (R153). -/
def decodeSnapshot (s : State) : State := reportVerdict (decodeFn s.cfg s.snap) s

/-- DECODE (R154). -/
def execDecode (s : State) : Result := configured decodeSnapshot s

end Sys2Proof.Machine
end

