-- ==== Sys2Proof/Machine/Flags.lean ====
section
/-! DEFINITION. The words in which the block reports its flags and results: the bits of STATUS and
RESULT and the code of OUTCOME (10_state.md R48, R51, 30_encoding.md R106). -/

namespace Sys2Proof.Machine

/-- The 3-bit code of OUTCOME (30_encoding.md R106). -/
def outcomeBits : DecodeOutcome → BitVec 3
  | .none => 0#3
  | .ok => 1#3
  | .insufficientPulses => 2#3
  | .invalidHeader => 3#3
  | .bitMarkMismatch => 4#3
  | .bitSpaceMismatch => 5#3
  | .invalidTrailer => 6#3

/-- Whether an OUTCOME is one of the five failures of 60_exceptions.md R231. -/
def isFailure : DecodeOutcome → Bool
  | .none => false
  | .ok => false
  | .insufficientPulses => true
  | .invalidHeader => true
  | .bitMarkMismatch => true
  | .bitSpaceMismatch => true
  | .invalidTrailer => true

/-- STATUS (10_state.md R48): bit 0 PREV_VALID, bit 1 OVF, bit 2 SNAP_OVF, bit 8 FAULT_CMD, bit 9
FAULT_BUS, all others 0. -/
def statusWord (s : State) : Word :=
  (0#22 : BitVec 22) ++ BitVec.ofBool s.faultBus ++ BitVec.ofBool s.faultCmd ++ (0#5 : BitVec 5)
    ++ BitVec.ofBool s.snapOvf ++ BitVec.ofBool s.ovf ++ BitVec.ofBool s.prevValid

/-- RESULT (10_state.md R51): OUTCOME in bits 2:0, FAIL_INDEX in bits 14:8, all others 0. -/
def resultWord (s : State) : Word :=
  (0#17 : BitVec 17) ++ s.failIndex ++ (0#5 : BitVec 5) ++ outcomeBits s.outcome

end Sys2Proof.Machine
end

