-- ==== Sys2Proof/Machine/Operands.lean ====
section
/-! DEFINITION. The operand forms of a host access: which register an offset names (10_state.md R47,
R57), the order of the access checks (43_host_access.md R217), and a register's value (R48 to R56). -/

namespace Sys2Proof.Machine

/-- The registers of the window (10_state.md R47); `snap k` is word k of the SNAP window. -/
inductive Reg where
  | cmd
  | status
  | count
  | snapCount
  | result
  | code
  | key
  | dist
  | info
  | snap (k : Nat)
deriving DecidableEq, Repr

/-- The direction of a host access. -/
inductive Direction where
  | read
  | write
deriving DecidableEq, Repr

/-- The checks of an access that raise BusFault, in the order in which they are made (43_host_access.md R217). -/
inductive AccessError where
  | wrongWidth
  | misaligned
  | unmapped
  | wrongDirection
deriving DecidableEq, Repr

/-- The control, status and result registers and their offsets (10_state.md R47). -/
def controlRegisters : List (Offset × Reg) :=
  [(0x000#11, .cmd), (0x004#11, .status), (0x008#11, .count), (0x00C#11, .snapCount), (0x010#11, .result),
    (0x014#11, .code), (0x018#11, .key), (0x01C#11, .dist), (0x020#11, .info)]

/-- The register at an aligned offset: a control register, or SNAP[k] at 0x400 + 4k for k < N_BUF;
every other offset is unmapped (10_state.md R47, R57). -/
def regAt (cfg : Config) (off : Offset) : Option Reg :=
  match controlRegisters.lookup off with
  | some r => some r
  | none =>
    if 0x400 ≤ off.toNat ∧ (off.toNat - 0x400) / 4 < cfg.nBuf then
      some (.snap ((off.toNat - 0x400) / 4))
    else none

/-- CMD is write-only, CODE is read and written, every other register is read-only (10_state.md R47). -/
def Reg.allows : Reg → Direction → Bool
  | .cmd, .read => false
  | .cmd, .write => true
  | .code, _ => true
  | _, .read => true
  | _, .write => false

/-- The access checks in their order: width, alignment, mapping, direction. The first that fails ends
the access and no later one is made (43_host_access.md R217). -/
def checkAccess (cfg : Config) (dir : Direction) (off : Offset) (width : Nat) : Except AccessError Reg :=
  if width ≠ 4 then .error .wrongWidth
  else if off.toNat % 4 ≠ 0 then .error .misaligned
  else
    match regAt cfg off with
    | none => .error .unmapped
    | some r => if r.allows dir then .ok r else .error .wrongDirection

/-- INFO (10_state.md R55): N_BUF in bits 15:0, K in bits 31:16. -/
def infoWord (cfg : Config) : Word := BitVec.ofNat 16 cfg.keyCount ++ BitVec.ofNat 16 cfg.nBuf

/-- SNAP[k] for k < SNAP_COUNT and 0 beyond it (10_state.md R56). -/
def snapWord (snap : List Interval) (k : Nat) : Word := snap.getD k 0#32

/-- The value of a register (10_state.md R48 to R56). CMD has none: `checkAccess` turns away a read of it,
so the 0 in its row is never returned. -/
def regValue (s : State) : Reg → Word
  | .cmd => 0#32
  | .status => statusWord s
  | .count => (0#16 : BitVec 16) ++ BitVec.ofNat 16 s.cnt
  | .snapCount => (0#16 : BitVec 16) ++ BitVec.ofNat 16 s.snapCount
  | .result => resultWord s
  | .code => s.code
  | .key => (0#16 : BitVec 16) ++ s.key
  | .dist => s.dist
  | .info => infoWord s.cfg
  | .snap k => snapWord s.snap k

end Sys2Proof.Machine
end

