-- ==== Sys2Proof/Machine/Resolver.lean ====
section
/-! DEFINITION. The Key Resolver: RESOLVE (42_resolver.md). -/

namespace Sys2Proof.Machine

/-- `| code - code_k |` on unbounded integers; it does not wrap (R192). -/
def distance (code tableCode : Word) : Nat := ((code.toNat : Int) - tableCode.toNat).natAbs

/-- The running best match of RESOLVE: the index and its distance (R191). -/
structure Match where
  index : Nat
  dist : Nat
deriving DecidableEq, Repr

/-- The rest of RESOLVE's scan, from table index k on. The comparison is strict, so the earlier entry
keeps a tie (R194). -/
def scanTable (code : Word) : (rest : List KeyEntry) → (k : Nat) → (best : Match) → Match
  | [], _, best => best
  | e :: rest, k, best =>
    if distance code e.code < best.dist then scanTable code rest (k + 1) ⟨k, distance code e.code⟩
    else scanTable code rest (k + 1) best

/-- The nearest entry of the table (R191). A legal configuration has at least one entry (00_scope.md R8),
so the first row is reached by no operation. -/
def nearestKey (table : List KeyEntry) (code : Word) : Match :=
  match table with
  | [] => ⟨0, 0⟩
  | e :: rest => scanTable code rest 1 ⟨0, distance code e.code⟩

/-- RESOLVE reads CODE, whatever OUTCOME holds (R190), and applies no threshold (R193). -/
def resolveCode (s : State) : State :=
  let best := nearestKey s.cfg.keyTable s.code
  writeMatch (BitVec.ofNat 16 best.index) (BitVec.ofNat 32 best.dist) s

/-- RESOLVE (R191). -/
def execResolve (s : State) : Result := configured resolveCode s

end Sys2Proof.Machine
end

