-- ==== Sys2Proof/Machine/HostAccess.lean ====
section
/-! DEFINITION. Host access: NOP, ILLEGAL, DISPATCH, RD and WR (43_host_access.md). -/

namespace Sys2Proof.Machine

/-- NOP has no effect (R213). -/
def noEffect (s : State) : State := s

/-- NOP (R213). -/
def execNop (s : State) : Result := configured noEffect s

/-- An illegal command word raises IllegalCommand and nothing of any command is performed (R214). The
block records no command word (60_exceptions.md R235). -/
def refuseCommand (_word : Word) (s : State) : State := raiseFault .command s

/-- ILLEGAL (R214). -/
def execIllegal (word : Word) (s : State) : Result := configured (refuseCommand word) s

/-- DISPATCH(v): the effect of a legal write of v to CMD (R212). -/
def dispatch (v : Word) (s : State) : State :=
  if v = 0x00000000#32 then noEffect s
  else if v = 0x00000001#32 then exchangeBuffer s
  else if v = 0x00000002#32 then decodeSnapshot s
  else if v = 0x00000003#32 then resolveCode s
  else refuseCommand v s

/-- RD(off, w): the register's value, or BusFault and 0 (R210). A legal read changes nothing of the
block (20_memory.md R75). -/
def readAccess (off : Offset) (width : Nat) (s : State) : State :=
  match checkAccess s.cfg .read off width with
  | .ok r => returnData (regValue s r) s
  | .error _ => returnData 0#32 (raiseFault .bus s)

/-- WR(off, w, v): the checks come before the command word is looked at (R211, R217). Of the registers
that pass them, CMD dispatches (R212) and CODE is written (R215); `checkAccess` lets no other through,
and the last row is the rule's own `else`. -/
def writeAccess (off : Offset) (width : Nat) (value : Word) (s : State) : State :=
  match checkAccess s.cfg .write off width with
  | .ok .cmd => dispatch value s
  | .ok .code => writeCode value s
  | .ok _ => raiseFault .bus s
  | .error _ => raiseFault .bus s

/-- RD (R210). -/
def execRd (off : Offset) (width : Nat) (s : State) : Result := configured (readAccess off width) s

/-- WR (R211). -/
def execWr (off : Offset) (width : Nat) (value : Word) (s : State) : Result :=
  configured (writeAccess off width value) s

end Sys2Proof.Machine
end

