-- ==== Sys2Proof/Machine/Dispatch.lean ====
section
/-! DEFINITION. The dispatch: one arm for each operation of the opcode table. -/

namespace Sys2Proof.Machine

-- One direct call of a meaning an arm.
def exec (i : Instr) (s : State) : Host.Outcome State Fault Refusal :=
  match i with
  | .edge now => Sys2Proof.Machine.execEdge now s
  | .nop => Sys2Proof.Machine.execNop s
  | .take => Sys2Proof.Machine.execTake s
  | .decode => Sys2Proof.Machine.execDecode s
  | .resolve => Sys2Proof.Machine.execResolve s
  | .illegal word => Sys2Proof.Machine.execIllegal word s
  | .rd off width => Sys2Proof.Machine.execRd off width s
  | .wr off width value => Sys2Proof.Machine.execWr off width value s

end Sys2Proof.Machine
end

