-- ==== Sys2Proof/Machine/Perform.lean ====
section
/-! DEFINITION. What an event does once it has arrived: the operation its stimulus decodes to, or the
platform's reset. -/

namespace Sys2Proof.Machine

/-- The refusal of a bus access that is no operation of the block. -/
def refusalOf : BusError → Refusal
  | .outsideWindow addr => .outsideWindow addr

/-- A stimulus performs the operation it decodes to; an edge samples TICKS as it is now (40_capture.md R121). -/
def performStimulus (o : Stimulus) (s : State) : Host.Outcome State Fault Refusal :=
  match decodeStimulus s.cfg s.ticks o with
  | .ok i => exec i s
  | .error e => .refused (refusalOf e)

/-- An event: an operation's stimulus, or the platform's reset (70_reset_and_hazards.md R270). -/
def performEvent (e : Event) (s : State) : Host.Outcome State Fault Refusal :=
  match e with
  | .operation o => performStimulus o s
  | .reset => .next (assertReset s)

end Sys2Proof.Machine
end

