-- ==== Sys2Proof/Machine/Step.lean ====
section
/-! DEFINITION. One step: the next arrival is taken, its microseconds pass, and its event is
performed as one atomic operation (20_memory.md R76, R78). -/

namespace Sys2Proof.Machine

/-- One step of the block. With nothing arriving the block waits and does not change: it never halts
(70_reset_and_hazards.md R283; log entry 2). A configuration that breaks 00_scope.md R8 has no step (R9). -/
def step (s : State) : Host.Outcome State Fault Refusal :=
  if s.cfg.wf then
    match s.arrivals with
    | [] => .next s
    | a :: rest => performEvent a.event (takeArrival a.elapsed rest s)
  else .refused .illFormedConfig

/-- The host's write of the command word `w` to CMD, at once, before everything else that is to arrive.
The block fetches nothing (20_memory.md R83): this is how a command comes to run (log entry 14). -/
def State.withFetchWord (s : State) (nbits w : Nat) : State :=
  { s with arrivals := ⟨0, .operation (commandWrite s.cfg (tableWord nbits w))⟩ :: s.arrivals }

end Sys2Proof.Machine
end

