-- ==== Sys2Proof/Safety.lean ====
section
/-! DEFINITION. What the claims are stated in: the invariants of 10_state.md R44, runs from reset,
faulted states, and declarative readings of the rules that do not use the machine's own functions. -/

namespace Sys2Proof.Machine

/-! ### Invariants and runs -/

/-- The values FAIL_INDEX may hold beside an OUTCOME (10_state.md R44 (d), 30_encoding.md R107). -/
def failIndexLegal (outcome : DecodeOutcome) (index : Nat) : Prop :=
  match outcome with
  | .bitMarkMismatch => index % 2 = 0 ∧ 2 ≤ index ∧ index ≤ 64
  | .bitSpaceMismatch => index % 2 = 1 ∧ 3 ≤ index ∧ index ≤ 65
  | _ => index = 0

/-- The invariants of 10_state.md R44 (a) to (d), with a legal configuration and the two W-bit elements
within W bits. -/
structure State.Inv (s : State) : Prop where
  configLegal : s.cfg.wf = true
  bufBelowGap : ∀ v ∈ s.buf, v.toNat < s.cfg.maxGap
  snapBelowGap : ∀ v ∈ s.snap, v.toNat < s.cfg.maxGap
  cntBounded : s.cnt ≤ s.cfg.nBuf
  snapCountBounded : s.snapCount ≤ s.cfg.nBuf
  keyInTable : s.key.toNat < s.cfg.keyCount
  failIndexOk : failIndexLegal s.outcome s.failIndex.toNat
  prevTimeInRange : s.prevTime.toNat < 2 ^ s.cfg.tickBits
  ticksInRange : s.ticks.toNat < 2 ^ s.cfg.tickBits

/-- A state with a fault bit set is read as a faulted run (60_exceptions.md R237, 70_reset_and_hazards.md R283). -/
def State.faulted (s : State) : Bool := s.faultCmd || s.faultBus

/-- The state with its fault bits cleared, to compare runs that differ in them only. -/
def State.eraseFaults (s : State) : State := { s with faultCmd := false, faultBus := false }

/-- Whether, after the next step of `s`, a host write of CODE has followed the last DECODE, when
`written` says so before it: a DECODE or a reset forgets it, a legal write of CODE sets it. -/
def codeWrittenAfter (s : State) (written : Bool) : Bool :=
  match s.arrivals with
  | [] => written
  | a :: _ =>
    match a.event with
    | .reset => false
    | .operation o =>
      match decodeStimulus s.cfg s.ticks o with
      | .ok .decode => false
      | .ok (.wr off width _) => written || (decide (width = 4) && decide (off = 0x014#11))
      | _ => written

/-- The states of the runs of a block with parameters `cfg`: from reset, with any value in TICKS and any
arrivals to come, by steps (70_reset_and_hazards.md R283). The flag says whether a host write of CODE
has followed the last DECODE (10_state.md R44 (e)). -/
inductive Reachable (cfg : Config) : State → Bool → Prop where
  | reset (ticks : Tick) (arrivals : List Arrival) (h : ticks.toNat < 2 ^ cfg.tickBits) :
      Reachable cfg { State.resetWith cfg ticks with arrivals := arrivals } false
  | step {s t : State} {written : Bool} (h : Reachable cfg s written) (hs : Machine.step s = .next t) :
      Reachable cfg t (codeWrittenAfter s written)

/-! ### The frame that DECODE looks for, without the decoder -/

/-- Interval k of a snapshot, as a number of microseconds. -/
def intervalAt (p : List Interval) (k : Nat) : Nat := (p.getD k 0#32).toNat

/-- `t - TOL < v < t + TOL` on integers (41_decoder.md R150). -/
def inWindow (cfg : Config) (v t : Nat) : Prop := (t : Int) - cfg.tol < v ∧ (v : Int) < t + cfg.tol

/-- Both header intervals are within their windows (41_decoder.md R158). -/
def headerOk (cfg : Config) (p : List Interval) : Prop :=
  inWindow cfg (intervalAt p 0) cfg.hdrMark ∧ inWindow cfg (intervalAt p 1) cfg.hdrSpace

/-- The mark of pair j, at index 2 + 2j, is within its window (41_decoder.md R159). -/
def markOk (cfg : Config) (p : List Interval) (j : Nat) : Prop :=
  inWindow cfg (intervalAt p (2 + 2 * j)) cfg.bitMark

/-- The space of pair j, at index 3 + 2j, is within one of the two windows (41_decoder.md R160). -/
def spaceOk (cfg : Config) (p : List Interval) (j : Nat) : Prop :=
  inWindow cfg (intervalAt p (3 + 2 * j)) cfg.oneSpace ∨ inWindow cfg (intervalAt p (3 + 2 * j)) cfg.zeroSpace

/-- The stop burst, the mark at index 66, is within its window (41_decoder.md R162). -/
def stopOk (cfg : Config) (p : List Interval) : Prop := inWindow cfg (intervalAt p 66) cfg.bitMark

/-- The snapshot is a frame that carries `code`: every check of R154 passes, and bit 31 - j of the code
is 1 exactly when the space of pair j matches One Space (41_decoder.md R152, R161). -/
structure CarriesCode (cfg : Config) (p : List Interval) (code : Word) : Prop where
  enough : cfg.minPulses ≤ p.length
  header : headerOk cfg p
  marks : ∀ j < 32, markOk cfg p j
  spaces : ∀ j < 32, spaceOk cfg p j
  stop : stopOk cfg p
  bits : ∀ j < 32, (code.getLsbD (31 - j) = true ↔ inWindow cfg (intervalAt p (3 + 2 * j)) cfg.oneSpace)

/-- The first check that fails, in the order of 41_decoder.md R164, with the OUTCOME and FAIL_INDEX of
60_exceptions.md R231. -/
inductive FirstFailure (cfg : Config) (p : List Interval) : DecodeOutcome → Nat → Prop where
  | length (h : p.length < cfg.minPulses) : FirstFailure cfg p .insufficientPulses 0
  | header (h : cfg.minPulses ≤ p.length) (hh : ¬ headerOk cfg p) : FirstFailure cfg p .invalidHeader 0
  | mark (j : Nat) (h : cfg.minPulses ≤ p.length) (hh : headerOk cfg p) (hj : j < 32)
      (hb : ∀ k < j, markOk cfg p k ∧ spaceOk cfg p k) (hm : ¬ markOk cfg p j) :
      FirstFailure cfg p .bitMarkMismatch (2 + 2 * j)
  | space (j : Nat) (h : cfg.minPulses ≤ p.length) (hh : headerOk cfg p) (hj : j < 32)
      (hb : ∀ k < j, markOk cfg p k ∧ spaceOk cfg p k) (hm : markOk cfg p j) (hs : ¬ spaceOk cfg p j) :
      FirstFailure cfg p .bitSpaceMismatch (3 + 2 * j)
  | trailer (h : cfg.minPulses ≤ p.length) (hh : headerOk cfg p)
      (hb : ∀ k < 32, markOk cfg p k ∧ spaceOk cfg p k) (hs : ¬ stopOk cfg p) :
      FirstFailure cfg p .invalidTrailer 0

/-- F(c), the nominal frame of 95_test_vectors.md for the reference parameters: the header, for j = 0 to
31 a mark and the space of bit 31 - j, and two intervals of 560. -/
def nominalFrame (c : Word) : List Interval :=
  [9000#32, 4500#32]
    ++ (List.range 32).flatMap (fun j => [560#32, if c.getLsbD (31 - j) then 1600#32 else 560#32])
    ++ [560#32, 560#32]

/-! ### The key that RESOLVE looks for, without the resolver -/

/-- `| code - code_k |` (42_resolver.md R192). -/
def keyDistance (code : Word) (e : KeyEntry) : Nat := ((code.toNat : Int) - (e.code.toNat : Int)).natAbs

/-- Entry k of the table is `e`, no entry is nearer to `code`, and every entry before it is farther
(42_resolver.md R194). -/
def IsNearest (table : List KeyEntry) (code : Word) (k : Nat) (e : KeyEntry) : Prop :=
  table[k]? = some e ∧
    ∀ j f, table[j]? = some f → keyDistance code e ≤ keyDistance code f ∧ (j < k → keyDistance code e < keyDistance code f)

/-! ### The register window, without the machine's readers -/

/-- The offset of a register of the window (10_state.md R47, R57). -/
def mapped (cfg : Config) (off : Nat) : Prop := off ≤ 0x020 ∨ (0x400 ≤ off ∧ off < 0x400 + 4 * cfg.nBuf)

/-- The number of OUTCOME (30_encoding.md R106). -/
def outcomeNumber : DecodeOutcome → Nat
  | .none => 0
  | .ok => 1
  | .insufficientPulses => 2
  | .invalidHeader => 3
  | .bitMarkMismatch => 4
  | .bitSpaceMismatch => 5
  | .invalidTrailer => 6

/-- The number that the register at an aligned, mapped offset other than CMD holds, from its bit fields
in 10_state.md R48 to R56. -/
def windowNumber (s : State) (off : Nat) : Nat :=
  if off = 0x004 then
    s.prevValid.toNat + 2 * s.ovf.toNat + 4 * s.snapOvf.toNat + 256 * s.faultCmd.toNat + 512 * s.faultBus.toNat
  else if off = 0x008 then s.buf.length
  else if off = 0x00C then s.snap.length
  else if off = 0x010 then outcomeNumber s.outcome + 256 * s.failIndex.toNat
  else if off = 0x014 then s.code.toNat
  else if off = 0x018 then s.key.toNat
  else if off = 0x01C then s.dist.toNat
  else if off = 0x020 then s.cfg.nBuf + 65536 * s.cfg.keyTable.length
  else intervalAt s.snap ((off - 0x400) / 4)

end Sys2Proof.Machine
end

