-- ==== Sys2Proof/Certificates/Slice0/Obligations.lean ====
section
/-! DEFINITION. The statements for the provers, one definition each; nothing is proved here.

A statement with `s.cfg.wf = true` holds for every legal configuration (00_scope.md R8, R9), whatever
its key table, base and tuning constants. An end state written `{ s with … }` is also the operation's
frame: every element not named in it is unchanged. -/

open Sys2Proof Sys2Proof.Machine

/-! ### Reset -/

/-- 70_reset_and_hazards.md R270 (and R271: parameters and TICKS are not reset). The reset input, in
any state, leaves every state element at its reset value; so does the state after power-on. The model's
choices and no rule: that TICKS has counted the arrival's `e` microseconds (log entry 3), and that the
arrivals after the reset are those that stood behind it (log entries 1 and 13). -/
def Obligations.ResetGivesEveryElementItsResetValue : Prop :=
  (∀ (s : State) (e : Nat) (rest : List Arrival), s.cfg.wf = true → s.arrivals = ⟨e, .reset⟩ :: rest →
    ∃ t, step s = .next t ∧ t.buf = [] ∧ t.cnt = 0 ∧ t.prevValid = false ∧ t.prevTime = 0#32 ∧ t.ovf = false
      ∧ t.snap = [] ∧ t.snapCount = 0 ∧ t.snapOvf = false ∧ t.outcome = .none ∧ t.failIndex = 0#7
      ∧ t.code = 0#32 ∧ t.key = 0#16 ∧ t.dist = 0#32 ∧ t.faultCmd = false ∧ t.faultBus = false
      ∧ t.cfg = s.cfg ∧ t.ticks.toNat = (s.ticks.toNat + e) % 2 ^ s.cfg.tickBits ∧ t.arrivals = rest)
  ∧ ∀ (cfg : Config) (k : Tick),
    let t := State.resetWith cfg k
    t.buf = [] ∧ t.cnt = 0 ∧ t.prevValid = false ∧ t.prevTime = 0#32 ∧ t.ovf = false
      ∧ t.snap = [] ∧ t.snapCount = 0 ∧ t.snapOvf = false ∧ t.outcome = .none ∧ t.failIndex = 0#7
      ∧ t.code = 0#32 ∧ t.key = 0#16 ∧ t.dist = 0#32 ∧ t.faultCmd = false ∧ t.faultBus = false
      ∧ t.cfg = cfg ∧ t.ticks = k

/-- 70_reset_and_hazards.md R272. What every readable register of the window returns after reset, whether
at power-on or by the reset input, and so with anything still to arrive and any value from the host's last
read before it: these two fields are the model's own and outlive a reset (log entry 13). -/
def Obligations.WindowAfterReset : Prop :=
  ∀ (cfg : Config) (k : Tick) (arrivals : List Arrival) (lastRead : Word), cfg.wf = true →
    let s : State := { State.resetWith cfg k with arrivals := arrivals, rdData := lastRead }
    (∀ off ∈ [0x004#11, 0x008#11, 0x00C#11, 0x010#11, 0x014#11, 0x018#11, 0x01C#11],
      exec (.rd off 4) s = .next { s with rdData := 0#32 })
    ∧ (∃ v : Word, v.toNat = cfg.nBuf + 65536 * cfg.keyTable.length
        ∧ exec (.rd 0x020#11 4) s = .next { s with rdData := v })
    ∧ ∀ n < cfg.nBuf, exec (.rd (BitVec.ofNat 11 (0x400 + 4 * n)) 4) s = .next { s with rdData := 0#32 }

/-! ### Edge capture -/

/-- 40_capture.md R122 (with R123 to R127 in it): the whole effect of EDGE, for every state and every
timestamp, with the interval taken on integers modulo 2^W. -/
def Obligations.EdgeEffect : Prop :=
  ∀ (s : State) (now : Tick), s.cfg.wf = true →
    let delta : Nat := (((now.toNat : Int) - (s.prevTime.toNat : Int)) % (2 ^ s.cfg.tickBits : Int)).toNat
    exec (.edge now) s = .next
      (if s.prevValid = false then { s with prevValid := true, prevTime := now }
       else if s.cfg.maxGap ≤ delta then { s with prevTime := now }
       else if s.cfg.nBuf ≤ s.buf.length then { s with ovf := true, prevTime := now }
       else { s with buf := s.buf ++ [BitVec.ofNat 32 delta], prevTime := now })

/-- 40_capture.md R126: after every EDGE the baseline is valid and is the edge's timestamp, whether the
interval was appended, discarded or dropped; an idle gap moves it too and appends nothing. -/
def Obligations.EdgeAlwaysMovesBaseline : Prop :=
  ∀ (s : State) (now : Tick), s.cfg.wf = true →
    let delta : Nat := (((now.toNat : Int) - (s.prevTime.toNat : Int)) % (2 ^ s.cfg.tickBits : Int)).toNat
    ∃ t, exec (.edge now) s = .next t ∧ t.prevValid = true ∧ t.prevTime = now
      ∧ (s.cfg.maxGap ≤ delta → t.buf = s.buf)

/-- 40_capture.md R125: the first edge after reset and the first edge after a TAKE append nothing, and
the second edge after either appends exactly the one interval between the two (unless it is an idle
gap, R124). After reset the model's own fields `arrivals` and `rdData` hold anything (log entry 13). -/
def Obligations.FirstEdgeAppendsNothing : Prop :=
  ∀ (s : State) (a b : Tick), s.cfg.wf = true →
    (∃ k arrivals lastRead, s = { State.resetWith s.cfg k with arrivals := arrivals, rdData := lastRead })
      ∨ (∃ r, exec .take r = .next s) →
    let delta : Nat := (((b.toNat : Int) - (a.toNat : Int)) % (2 ^ s.cfg.tickBits : Int)).toNat
    ∃ t u, exec (.edge a) s = .next t ∧ t.buf = [] ∧ t.prevValid = true ∧ t.prevTime = a
      ∧ exec (.edge b) t = .next u
      ∧ u.buf = (if delta < s.cfg.maxGap then [BitVec.ofNat 32 delta] else [])

/-- 40_capture.md R123 and 70_reset_and_hazards.md R278, as a step of the machine: when `e` microseconds
have passed since the edge that set the baseline, the next edge measures e mod 2^W (which is e itself
below one period of the counter), appends it below MAX_GAP and discards it otherwise. -/
def Obligations.EdgeMeasuresElapsedMicroseconds : Prop :=
  ∀ (s : State) (e : Nat) (rest : List Arrival), s.cfg.wf = true →
    s.ticks.toNat < 2 ^ s.cfg.tickBits → s.prevValid = true → s.prevTime = s.ticks →
    s.buf.length < s.cfg.nBuf → s.arrivals = ⟨e, .operation .edge⟩ :: rest →
    let now : Tick := BitVec.ofNat 32 ((s.ticks.toNat + e) % 2 ^ s.cfg.tickBits)
    step s = .next { s with
      buf := if e % 2 ^ s.cfg.tickBits < s.cfg.maxGap then s.buf ++ [BitVec.ofNat 32 (e % 2 ^ s.cfg.tickBits)] else s.buf
      prevTime := now
      ticks := now
      arrivals := rest }

/-- 40_capture.md R128: an EDGE step is enabled in every state, the faulted ones among them, and has no
fault outcome. -/
def Obligations.EdgeEnabledInEveryState : Prop :=
  ∀ (s : State) (now : Tick), s.cfg.wf = true →
    ∃ t, exec (.edge now) s = .next t ∧ t.faultCmd = s.faultCmd ∧ t.faultBus = s.faultBus

/-- 40_capture.md R129: the whole effect of TAKE; OUTCOME, FAIL_INDEX, CODE, KEY, DIST and PREV_TIME
among what it leaves (R131). -/
def Obligations.TakeEffect : Prop :=
  ∀ s : State, s.cfg.wf = true →
    exec .take s = .next
      { s with snap := s.buf, snapOvf := s.ovf, buf := [], ovf := false, prevValid := false }

/-- 40_capture.md R130: an edge and a TAKE are performed in one order or the other. Edge first: what the
edge left in BUF is in SNAP and BUF is empty. TAKE first: the edge appends nothing, it is the baseline of
the fresh buffer. -/
def Obligations.EdgeAndTakeSerialise : Prop :=
  ∀ (s : State) (now : Tick), s.cfg.wf = true →
    (∃ t u, exec (.edge now) s = .next t ∧ exec .take t = .next u
      ∧ u.snap = t.buf ∧ u.snapOvf = t.ovf ∧ u.buf = [] ∧ u.prevValid = false)
    ∧ (∃ t u, exec .take s = .next t ∧ exec (.edge now) t = .next u
      ∧ u.snap = s.buf ∧ u.snapOvf = s.ovf ∧ u.buf = [] ∧ u.prevValid = true ∧ u.prevTime = now)

/-- 70_reset_and_hazards.md R279: with a full buffer an interval below MAX_GAP is lost, and the next
TAKE says so in SNAP_OVF. -/
def Obligations.OverflowIsReported : Prop :=
  ∀ (s : State) (now : Tick), s.cfg.wf = true → s.prevValid = true → s.buf.length = s.cfg.nBuf →
    ((((now.toNat : Int) - (s.prevTime.toNat : Int)) % (2 ^ s.cfg.tickBits : Int)).toNat < s.cfg.maxGap) →
    ∃ t u, exec (.edge now) s = .next t ∧ t.buf = s.buf ∧ t.ovf = true ∧ t.prevTime = now
      ∧ exec .take t = .next u ∧ u.snap = s.buf ∧ u.snapOvf = true ∧ u.ovf = false

/-! ### The decoder -/

/-- 41_decoder.md R150: MATCH is the open window on unbounded integers, for every tolerance and nominal. -/
def Obligations.MatchIsOpenWindow : Prop :=
  ∀ (cfg : Config) (v : Interval) (t : Nat),
    matchNominal cfg v t = true ↔ ((t : Int) - (cfg.tol : Int) < (v.toNat : Int) ∧ (v.toNat : Int) < (t : Int) + (cfg.tol : Int))

/-- 41_decoder.md R151: the intervals that match each nominal, with the reference values. -/
def Obligations.ReferenceWindows : Prop :=
  ∀ v : Interval,
    (matchNominal Config.reference v Config.reference.hdrMark = true ↔ 8001 ≤ v.toNat ∧ v.toNat ≤ 9999)
    ∧ (matchNominal Config.reference v Config.reference.hdrSpace = true ↔ 3501 ≤ v.toNat ∧ v.toNat ≤ 5499)
    ∧ (matchNominal Config.reference v Config.reference.bitMark = true ↔ v.toNat ≤ 1559)
    ∧ (matchNominal Config.reference v Config.reference.oneSpace = true ↔ 601 ≤ v.toNat ∧ v.toNat ≤ 2599)
    ∧ (matchNominal Config.reference v Config.reference.zeroSpace = true ↔ v.toNat ≤ 1559)

/-- 41_decoder.md R152: a space that matches One Space is a 1 whether or not it also matches Zero Space.
With the reference values 601 to 1559 matches both, and a bit space reads as 0 for 0 to 600, as 1 for 601
to 2599, and fails from 2600 on. -/
def Obligations.OverlappingSpacesReadAsOne : Prop :=
  (∀ (cfg : Config) (v : Interval), cfg.wf = true → matchNominal cfg v cfg.oneSpace = true →
    readSpace cfg v = some true)
  ∧ ∀ v : Interval,
    (601 ≤ v.toNat ∧ v.toNat ≤ 1559 → matchNominal Config.reference v Config.reference.oneSpace = true
      ∧ matchNominal Config.reference v Config.reference.zeroSpace = true)
    ∧ (v.toNat ≤ 600 → readSpace Config.reference v = some false)
    ∧ (601 ≤ v.toNat ∧ v.toNat ≤ 2599 → readSpace Config.reference v = some true)
    ∧ (2600 ≤ v.toNat → readSpace Config.reference v = none)

/-- 41_decoder.md R154, R155, R161, R163: DECODE succeeds exactly on the snapshots that are frames, with
the code whose bits the spaces give MSB-first; on every other snapshot it reports a failure and leaves
CODE 0. No other element changes. -/
def Obligations.DecodeSucceedsExactlyOnFrames : Prop :=
  ∀ s : State, s.cfg.wf = true →
    (∀ c, CarriesCode s.cfg s.snap c →
      exec .decode s = .next { s with outcome := .ok, failIndex := 0#7, code := c })
    ∧ ((¬ ∃ c, CarriesCode s.cfg s.snap c) →
      ∃ o i, o ≠ .none ∧ o ≠ .ok
        ∧ exec .decode s = .next { s with outcome := o, failIndex := i, code := 0#32 })

/-- 41_decoder.md R164: the first check that fails decides OUTCOME and FAIL_INDEX, which are those that
R157 to R160, R162 and 60_exceptions.md R231 give it. No other element changes but CODE, which becomes
0 (R155). -/
def Obligations.DecodeReportsFirstFailure : Prop :=
  ∀ (s : State) (o : DecodeOutcome) (i : Nat), s.cfg.wf = true → FirstFailure s.cfg s.snap o i →
    exec .decode s = .next { s with outcome := o, failIndex := BitVec.ofNat 7 i, code := 0#32 }

/-- 41_decoder.md R154, R155, R163 and R164: in every state the snapshot is a frame of some code and DECODE
writes OK, 0 and that code, or it has a first failing check and DECODE writes that check's OUTCOME and
FAIL_INDEX and CODE 0, and never are both the case. No other element changes (R166). -/
def Obligations.FrameOrFirstFailure : Prop :=
  ∀ s : State, s.cfg.wf = true →
    ((∃ c, CarriesCode s.cfg s.snap c
        ∧ exec .decode s = .next { s with outcome := .ok, failIndex := 0#7, code := c })
      ∨ ∃ (o : DecodeOutcome) (i : BitVec 7), FirstFailure s.cfg s.snap o i.toNat
        ∧ exec .decode s = .next { s with outcome := o, failIndex := i, code := 0#32 })
    ∧ ¬ ((∃ c, CarriesCode s.cfg s.snap c) ∧ ∃ o n, FirstFailure s.cfg s.snap o n)

/-- 41_decoder.md R157: a snapshot shorter than MIN_PULSES, and so every one shorter than 68, fails with
InsufficientPulses whatever it holds. -/
def Obligations.ShortSnapshotIsInsufficient : Prop :=
  ∀ s : State, s.cfg.wf = true → s.snap.length < s.cfg.minPulses ∨ s.snap.length < 68 →
    exec .decode s = .next { s with outcome := .insufficientPulses, failIndex := 0#7, code := 0#32 }

/-- 41_decoder.md R156: two snapshots that are both long enough and agree on indices 0 to 66 decode
alike; index 67 and everything after it has no effect. -/
def Obligations.DecodeIgnoresBeyondTrailer : Prop :=
  ∀ (s : State) (p q : List Interval), s.cfg.wf = true →
    s.cfg.minPulses ≤ p.length → s.cfg.minPulses ≤ q.length → p.take 67 = q.take 67 →
    ∃ o i c,
      exec .decode { s with snap := p } = .next { s with snap := p, outcome := o, failIndex := i, code := c }
      ∧ exec .decode { s with snap := q } = .next { s with snap := q, outcome := o, failIndex := i, code := c }

/-- 41_decoder.md R153: DECODE reads SNAP alone. Its result does not depend on BUF, the baseline, OVF, the
earlier results, the fault bits or TICKS, and a second DECODE gives the same result again. -/
def Obligations.DecodeReadsSnapshotAlone : Prop :=
  ∀ s : State, s.cfg.wf = true →
    ∃ o i c, ∀ r : State, r.cfg = s.cfg → r.snap = s.snap →
      exec .decode r = .next { r with outcome := o, failIndex := i, code := c }
      ∧ exec .decode { r with outcome := o, failIndex := i, code := c }
        = .next { r with outcome := o, failIndex := i, code := c }

/-- 95_test_vectors.md E2 and 41_decoder.md R161: with the reference timing, for every 32-bit code the
nominal frame of that code decodes to it, whatever intervals follow the frame. -/
def Obligations.NominalFrameDecodesToItsCode : Prop :=
  ∀ (s : State) (c : Word) (table : List KeyEntry) (base : Nat) (tail : List Interval),
    s.cfg = { Config.reference with keyTable := table, base := base } → s.cfg.wf = true →
    s.snap = nominalFrame c ++ tail →
    exec .decode s = .next { s with outcome := .ok, failIndex := 0#7, code := c }

/-! ### The resolver -/

/-- 42_resolver.md R194 (with R191 to R193): RESOLVE always answers the first entry at the least distance,
as its index and its exact unwrapped distance, for every CODE and whatever OUTCOME holds. -/
def Obligations.ResolveFindsFirstNearest : Prop :=
  ∀ s : State, s.cfg.wf = true →
    ∃ (k : Nat) (e : KeyEntry) (kw : BitVec 16) (dw : Word),
      IsNearest s.cfg.keyTable s.code k e ∧ kw.toNat = k ∧ dw.toNat = keyDistance s.code e
      ∧ exec .resolve s = .next { s with key := kw, dist := dw }

/-- The source's end-to-end scenario (95_test_vectors.md E6) under a condition that suffices for it by
42_resolver.md R191: "OK" holds 0x00FF38C7, no entry before it is at distance 1 or less from the two
codes, and no entry holds 0x00FF38C6. The condition is the model's reading (log entry 15), not R10's. -/
def Obligations.OkScenarioHolds : Prop :=
  ∀ (s : State) (before after : List KeyEntry), s.cfg.wf = true →
    s.cfg.keyTable = before ++ ⟨"OK", 0x00FF38C7#32⟩ :: after →
    (∀ e ∈ before, e.code ≠ 0x00FF38C5#32 ∧ e.code ≠ 0x00FF38C7#32) →
    (∀ e ∈ s.cfg.keyTable, e.code ≠ 0x00FF38C6#32) →
    (s.code = 0x00FF38C7#32 →
      exec .resolve s = .next { s with key := BitVec.ofNat 16 before.length, dist := 0#32 })
    ∧ (s.code = 0x00FF38C6#32 →
      exec .resolve s = .next { s with key := BitVec.ofNat 16 before.length, dist := 1#32 })

/-- 00_scope.md R10 as it stands: its condition on the table is enough for 0x00FF38C6 to resolve to the
entry named "OK". Expected to FAIL: an earlier entry 0x00FF38C5 ties with it and wins (log entry 15). -/
def Obligations.ScopeConditionGivesOkScenario : Prop :=
  ∀ s : State, s.cfg.wf = true → s.cfg.meetsR10 → s.code = 0x00FF38C6#32 →
    ∃ t e, exec .resolve s = .next t ∧ s.cfg.keyTable[t.key.toNat]? = some e ∧ e.name = "OK"

/-- 70_reset_and_hazards.md R277: after a failed DECODE, CODE is 0 and RESOLVE answers the first entry
nearest to 0. -/
def Obligations.ResolveAfterFailedDecode : Prop :=
  ∀ (s : State) (o : DecodeOutcome) (i : Nat), s.cfg.wf = true → FirstFailure s.cfg s.snap o i →
    ∃ t k e u, exec .decode s = .next t ∧ t.code = 0#32 ∧ IsNearest s.cfg.keyTable 0#32 k e
      ∧ exec .resolve t = .next u ∧ u.key.toNat = k ∧ u.dist = e.code

/-! ### Host access -/

/-- 43_host_access.md R210: a read of a wrong width, at a misaligned or unmapped offset, or of CMD, sets
FAULT_BUS and returns 0; every other read returns the register's value and changes nothing of the block.
The two premises are invariants (10_state.md R44 (b)). -/
def Obligations.ReadEffect : Prop :=
  ∀ (s : State) (off : Offset) (width : Nat), s.cfg.wf = true →
    s.buf.length ≤ s.cfg.nBuf → s.snap.length ≤ s.cfg.nBuf →
    ((width ≠ 4 ∨ off.toNat % 4 ≠ 0 ∨ ¬ mapped s.cfg off.toNat ∨ off = 0x000#11) →
      exec (.rd off width) s = .next { s with faultBus := true, rdData := 0#32 })
    ∧ ((width = 4 ∧ off.toNat % 4 = 0 ∧ mapped s.cfg off.toNat ∧ off ≠ 0x000#11) →
      ∃ v : Word, v.toNat = windowNumber s off.toNat
        ∧ exec (.rd off width) s = .next { s with rdData := v })

/-- 43_host_access.md R216: reads of the SNAP window. -/
def Obligations.SnapWindowRead : Prop :=
  ∀ (s : State) (k : Nat), s.cfg.wf = true → s.snap.length ≤ s.cfg.nBuf → k < 256 →
    let off : Offset := BitVec.ofNat 11 (0x400 + 4 * k)
    (∀ v, s.snap[k]? = some v → exec (.rd off 4) s = .next { s with rdData := v })
    ∧ (s.snap.length ≤ k ∧ k < s.cfg.nBuf → exec (.rd off 4) s = .next { s with rdData := 0#32 })
    ∧ (s.cfg.nBuf ≤ k → exec (.rd off 4) s = .next { s with faultBus := true, rdData := 0#32 })

/-- 20_memory.md R75: a legal read changes no state element, and reading the same register again returns
the same value. -/
def Obligations.LegalReadsAreIdempotent : Prop :=
  ∀ (s : State) (off : Offset), s.cfg.wf = true →
    off.toNat % 4 = 0 → mapped s.cfg off.toNat → off ≠ 0x000#11 →
    ∃ v : Word, exec (.rd off 4) s = .next { s with rdData := v }
      ∧ exec (.rd off 4) { s with rdData := v } = .next { s with rdData := v }

/-- 43_host_access.md R211: a write of a wrong width, at a misaligned or unmapped offset, or to a
read-only register sets FAULT_BUS and does nothing else, whatever its value; a legal write of CODE stores
the value; a legal write of CMD performs DISPATCH. -/
def Obligations.WriteEffect : Prop :=
  ∀ (s : State) (off : Offset) (width : Nat) (v : Word), s.cfg.wf = true →
    ((width ≠ 4 ∨ off.toNat % 4 ≠ 0 ∨ ¬ mapped s.cfg off.toNat ∨ (off ≠ 0x000#11 ∧ off ≠ 0x014#11)) →
      exec (.wr off width v) s = .next { s with faultBus := true })
    ∧ (width = 4 ∧ off = 0x014#11 → exec (.wr off width v) s = .next { s with code := v })
    ∧ (width = 4 ∧ off = 0x000#11 → exec (.wr off width v) s = .next (dispatch v s))

/-- 43_host_access.md R212: a legal write to CMD performs the operation its word selects. -/
def Obligations.CommandWriteDispatches : Prop :=
  ∀ (s : State) (v : Word), s.cfg.wf = true →
    (v = 0x00000000#32 → exec (.wr 0x000#11 4 v) s = exec .nop s)
    ∧ (v = 0x00000001#32 → exec (.wr 0x000#11 4 v) s = exec .take s)
    ∧ (v = 0x00000002#32 → exec (.wr 0x000#11 4 v) s = exec .decode s)
    ∧ (v = 0x00000003#32 → exec (.wr 0x000#11 4 v) s = exec .resolve s)
    ∧ (v ∉ [0x00000000#32, 0x00000001#32, 0x00000002#32, 0x00000003#32] →
      exec (.wr 0x000#11 4 v) s = .next { s with faultCmd := true })
    ∧ exec (.wr 0x000#11 4 v) s = exec (decodeCommand v) s

/-- 43_host_access.md R213: NOP leaves every state element unchanged. -/
def Obligations.NopChangesNothing : Prop :=
  ∀ s : State, s.cfg.wf = true →
    exec .nop s = .next s ∧ exec (.wr 0x000#11 4 0x00000000#32) s = .next s

/-- 43_host_access.md R214: an illegal command word sets FAULT_CMD and changes nothing else. -/
def Obligations.IllegalCommandSetsFaultOnly : Prop :=
  ∀ (s : State) (w : Word), s.cfg.wf = true →
    w ∉ [0x00000000#32, 0x00000001#32, 0x00000002#32, 0x00000003#32] →
    exec (.illegal w) s = .next { s with faultCmd := true }
    ∧ exec (.wr 0x000#11 4 w) s = .next { s with faultCmd := true }

/-! ### Faults -/

/-- 60_exceptions.md R241 and 43_host_access.md R217: one operation raises at most one fault, and an access
that fails any of the checks made before the command word (width, alignment, mapping, direction) raises
BusFault and never IllegalCommand, whatever word it carries. Only a command word that is none of the four
raises IllegalCommand, and a read never does. -/
def Obligations.AtMostOneFaultPerOperation : Prop :=
  ∀ (i : Instr) (s t : State), exec i s = .next t →
    (t.faultCmd = s.faultCmd ∨ t.faultBus = s.faultBus)
    ∧ (∀ off width v, i = .wr off width v →
      (width ≠ 4 ∨ off.toNat % 4 ≠ 0 ∨ ¬ mapped s.cfg off.toNat ∨ (off ≠ 0x000#11 ∧ off ≠ 0x014#11)) →
      t.faultCmd = s.faultCmd ∧ t.faultBus = true)
    ∧ (∀ off width, i = .rd off width → t.faultCmd = s.faultCmd
      ∧ ((width ≠ 4 ∨ off.toNat % 4 ≠ 0 ∨ ¬ mapped s.cfg off.toNat ∨ off = 0x000#11) → t.faultBus = true))
    ∧ (t.faultCmd ≠ s.faultCmd → ∃ w, i.performs = .illegal w)

/-- 60_exceptions.md R237: a step that clears a fault bit is a reset. A state with either bit set is a
faulted one. -/
def Obligations.OnlyResetClearsFaults : Prop :=
  (∀ s t : State, step s = .next t →
    (s.faultCmd = true ∧ t.faultCmd = false) ∨ (s.faultBus = true ∧ t.faultBus = false) →
    ∃ e rest, s.arrivals = ⟨e, .reset⟩ :: rest)
  ∧ (∀ (s : State) (e : Nat) (rest : List Arrival), s.cfg.wf = true → s.arrivals = ⟨e, .reset⟩ :: rest →
    ∃ t, step s = .next t ∧ t.faultCmd = false ∧ t.faultBus = false)
  ∧ ∀ s : State, s.faulted = true ↔ s.faultCmd = true ∨ s.faultBus = true

/-- 60_exceptions.md R236: the block goes on as if the fault had not occurred. Every operation but a read
of STATUS has the same effect, fault bits apart, on a state and on that state without its fault bits. -/
def Obligations.FaultsDoNotChangeBehaviour : Prop :=
  ∀ (i : Instr) (s t : State), i ≠ .rd 0x004#11 4 → exec i s = .next t →
    ∃ u, exec i s.eraseFaults = .next u ∧ u.eraseFaults = t.eraseFaults

/-- 60_exceptions.md R230: no operation traps, halts or resets the block: under a legal configuration
every operation has a next state, and none of them touches the parameters, TICKS or what is still to
arrive. -/
def Obligations.EveryOperationCompletes : Prop :=
  ∀ (i : Instr) (s : State), s.cfg.wf = true →
    ∃ t, exec i s = .next t ∧ t.cfg = s.cfg ∧ t.ticks = s.ticks ∧ t.arrivals = s.arrivals

/-! ### The whole machine -/

/-- 10_state.md R43: the writers of each element, exhaustively. An operation changes no element outside
its column of the table, BUF is mutated only by append and by TAKE's clear, and reset sets every element. The
model's choices and no rule: that RD writes `rdData`, the value handed to the host (log entry 8), and that
reset leaves `rdData` and the arrivals behind it (log entry 13). -/
def Obligations.WritersOfEachElement : Prop :=
  (∀ (i : Instr) (s t : State), exec i s = .next t →
    match i.performs with
    | .edge _ =>
      t = { s with buf := t.buf, prevValid := true, prevTime := t.prevTime, ovf := t.ovf }
        ∧ (t.buf = s.buf ∨ ∃ v, t.buf = s.buf ++ [v]) ∧ (s.ovf = true → t.ovf = true)
    | .nop => t = s
    | .take =>
      t = { s with buf := [], prevValid := false, ovf := false, snap := s.buf, snapOvf := s.ovf }
    | .decode => t = { s with outcome := t.outcome, failIndex := t.failIndex, code := t.code }
    | .resolve => t = { s with key := t.key, dist := t.dist }
    | .illegal _ => t = { s with faultCmd := true }
    | .rd _ _ => t = { s with rdData := t.rdData, faultBus := t.faultBus } ∧ (s.faultBus = true → t.faultBus = true)
    | .wr _ _ _ => t = { s with code := t.code, faultBus := t.faultBus } ∧ (s.faultBus = true → t.faultBus = true))
  ∧ ∀ (s : State) (e : Nat) (rest : List Arrival), s.cfg.wf = true → s.arrivals = ⟨e, .reset⟩ :: rest →
    ∃ t, step s = .next t ∧ t = { State.resetWith s.cfg t.ticks with arrivals := rest, rdData := s.rdData }

/-- 00_scope.md R7: no operation, no register write and no reset changes a parameter. -/
def Obligations.ParametersNeverChange : Prop :=
  (∀ (i : Instr) (s t : State), exec i s = .next t → t.cfg = s.cfg)
  ∧ ∀ s t : State, step s = .next t → t.cfg = s.cfg

/-- 00_scope.md R9, with the constraints of R8 written out: a configuration is legal exactly when it meets
them all, and an illegal one is given no meaning, neither by an operation nor by a step. -/
def Obligations.IllFormedConfigurationIsRefused : Prop :=
  (∀ cfg : Config, cfg.wf = true ↔
    (8 ≤ cfg.tickBits ∧ cfg.tickBits ≤ 32 ∧ 1 ≤ cfg.maxGap ∧ cfg.maxGap ≤ 2 ^ cfg.tickBits
      ∧ (∀ t ∈ [cfg.hdrMark, cfg.hdrSpace, cfg.bitMark, cfg.oneSpace, cfg.zeroSpace], t + cfg.tol ≤ cfg.maxGap)
      ∧ 68 ≤ cfg.minPulses ∧ 68 ≤ cfg.nBuf ∧ cfg.nBuf ≤ 256
      ∧ 1 ≤ cfg.keyTable.length ∧ cfg.keyTable.length ≤ 65535
      ∧ cfg.spacePriority = .oneFirst ∧ cfg.trailerIndex = 66 ∧ cfg.base % 2048 = 0))
  ∧ ∀ s : State, s.cfg.wf = false →
    (∀ i, exec i s = .refused .illFormedConfig) ∧ step s = .refused .illFormedConfig

/-- 10_state.md R42: TICKS advances by the microseconds that pass, wraps from 2^W - 1 to 0, and is changed
by nothing else, reset among it. That a step takes its microseconds from the arrival is the model's
choice (log entry 3). -/
def Obligations.TicksAdvanceWithTimeAlone : Prop :=
  (∀ (i : Instr) (s t : State), exec i s = .next t → t.ticks = s.ticks)
  ∧ (∀ (s t : State) (e : Nat) (ev : Event) (rest : List Arrival), s.arrivals = ⟨e, ev⟩ :: rest → step s = .next t →
    t.ticks.toNat = (s.ticks.toNat + e) % 2 ^ s.cfg.tickBits)
  ∧ ∀ cfg : Config, cfg.wf = true → ticksAfter cfg (BitVec.ofNat 32 (2 ^ cfg.tickBits - 1)) 1 = 0#32

/-- 20_memory.md R82 (and R78): an edge and a host operation commute, whatever the state, unless the host
operation is TAKE or a read of STATUS or COUNT: no other host access races an edge. -/
def Obligations.EdgeCommutesWithHostOperations : Prop :=
  ∀ (s : State) (now : Tick) (i : Instr), s.cfg.wf = true →
    (∀ k, i ≠ .edge k) → i.performs ≠ .take → i ≠ .rd 0x004#11 4 → i ≠ .rd 0x008#11 4 →
    ∃ t t' u, exec (.edge now) s = .next t ∧ exec i t = .next u
      ∧ exec i s = .next t' ∧ exec (.edge now) t' = .next u

/-- 10_state.md R44: the invariants (a) to (e) in every state of every run: any legal configuration, any
value of TICKS at reset, any edges, accesses and resets in any order. `StepKeepsInvariant` is the step. -/
def Obligations.InvariantsHoldInEveryReachableState : Prop :=
  ∀ (cfg : Config) (s : State) (written : Bool), cfg.wf = true → Reachable cfg s written →
    (∀ v ∈ s.buf, v.toNat < s.cfg.maxGap) ∧ (∀ v ∈ s.snap, v.toNat < s.cfg.maxGap)
    ∧ s.cnt ≤ s.cfg.nBuf ∧ s.snapCount ≤ s.cfg.nBuf
    ∧ s.key.toNat < s.cfg.keyCount
    ∧ (s.outcome ≠ .bitMarkMismatch → s.outcome ≠ .bitSpaceMismatch → s.failIndex = 0#7)
    ∧ (s.outcome = .bitMarkMismatch ∨ s.outcome = .bitSpaceMismatch → 2 ≤ s.failIndex.toNat ∧ s.failIndex.toNat ≤ 65)
    ∧ (written = false → isFailure s.outcome = true → s.code = 0#32)

/-- 10_state.md R44 (a) to (d) and 30_encoding.md R107 as one invariant, kept by every step from every
state that has it, whether or not a run reaches that state; and with it R44 (e), that CODE is 0 under a
failure OUTCOME unless a host write of CODE has followed the DECODE, which `written` says before the step
and `codeWrittenAfter` after it. -/
def Obligations.StepKeepsInvariant : Prop :=
  ∀ (s t : State) (written : Bool), s.Inv →
    (written = false → isFailure s.outcome = true → s.code = 0#32) → step s = .next t →
    t.Inv ∧ (codeWrittenAfter s written = false → isFailure t.outcome = true → t.code = 0#32)

/-- The invariant of `StepKeepsInvariant` at reset, for every legal configuration and every W-bit value of
TICKS (70_reset_and_hazards.md R271 leaves it open). -/
def Obligations.ResetSatisfiesInvariant : Prop :=
  State.reset.Inv ∧ ∀ (cfg : Config) (k : Tick), cfg.wf = true → k.toNat < 2 ^ cfg.tickBits →
    (State.resetWith cfg k).Inv

/-- A step runs the operation that the next arrival decodes to, on the state whose list has lost it and
whose TICKS has counted its microseconds; an edge's operand is that value of TICKS (40_capture.md R121).
The model's choices and no rule: the one list of arrivals (log entry 1), TICKS advanced by the arrival's `e`
microseconds (log entry 3), a step with nothing arriving changing nothing (log entry 2), a bus access
outside the window refused (log entry 9), and the address of an access's first byte alone deciding that,
whatever its width (log entry 10, unsafe). -/
def Obligations.StepRunsDecodedOperation : Prop :=
  ∀ s : State, s.cfg.wf = true →
    (∀ (e : Nat) (o : Stimulus) (rest : List Arrival), s.arrivals = ⟨e, .operation o⟩ :: rest →
      ∀ now : Tick, now = BitVec.ofNat 32 ((s.ticks.toNat + e) % 2 ^ s.cfg.tickBits) →
        (∀ i, decodeStimulus s.cfg now o = .ok i →
          step s = exec i { s with arrivals := rest, ticks := now })
        ∧ (o = .edge → step s = exec (.edge now) { s with arrivals := rest, ticks := now })
        ∧ (∀ addr width v, (o = .read addr width ∨ o = .write addr width v) →
          addr < s.cfg.base ∨ s.cfg.base + 2048 ≤ addr → step s = .refused (.outsideWindow addr)))
    ∧ (s.arrivals = [] → step s = .next s)

/-- The word that is written to CMD at once runs as the operation that the table's word decodes to, and
nothing else of the state takes part. That `withFetchWord` is a host write of the word to CMD, before
everything else that is to arrive, is the model's choice (log entry 14). -/
def Obligations.FetchWordRunsNext : Prop :=
  ∀ (s : State) (w : Nat), s.cfg.wf = true → s.ticks.toNat < 2 ^ s.cfg.tickBits → w < 2 ^ 32 →
    ∃ i, decodeTableWord 32 w = some i ∧ step (s.withFetchWord 32 w) = exec i s

/-! ### Encoding -/

/-- Decoding the stimulus of a well-formed operation gives the operation back, for every legal
configuration and every operand; a WR that is a legal write to CMD is the command its word selects. The
bytes of a command word, as they lie on the bus, decode to the command. -/
def Obligations.DecodeInvertsEncode : Prop :=
  ∀ (cfg : Config) (i : Instr), cfg.wf = true → i.wf cfg = true →
    (∀ ticks, (∀ now, i = .edge now → ticks = now) →
      ((∀ v, i ≠ .wr 0x000#11 4 v) → decodeStimulus cfg ticks (encode cfg i) = .ok i)
      ∧ ∀ v, i = .wr 0x000#11 4 v → decodeStimulus cfg ticks (encode cfg i) = .ok (decodeCommand v))
    ∧ ∀ w, encodeCommand i = some w → decodeLanes (lanesOf w) = .ok i

/-- 30_encoding.md R103: a command word is legal if and only if it is one of the four; every other word,
the reserved opcodes and every word with RSV != 0, is ILLEGAL and no neighbouring opcode, and a legal write
of it to CMD raises IllegalCommand. -/
def Obligations.LegalCommandWordsAreExactlyFour : Prop :=
  (∀ (s : State) (w : Word), s.cfg.wf = true →
    w ∉ [0x00000000#32, 0x00000001#32, 0x00000002#32, 0x00000003#32] →
    exec (.wr 0x000#11 4 w) s = .next { s with faultCmd := true })
  ∧ ∀ w : Word,
    (decodeCommand w = .illegal w ↔ w ∉ [0x00000000#32, 0x00000001#32, 0x00000002#32, 0x00000003#32])
    ∧ (decodeCommand w = .nop ↔ w = 0x00000000#32) ∧ (decodeCommand w = .take ↔ w = 0x00000001#32)
    ∧ (decodeCommand w = .decode ↔ w = 0x00000002#32) ∧ (decodeCommand w = .resolve ↔ w = 0x00000003#32)

/-- 30_encoding.md R102 on words written out as bytes, lowest address first (a sanity statement). -/
def Obligations.CommandWordsDecode : Prop :=
  decodeLanes [0x00#8, 0x00#8, 0x00#8, 0x00#8] = .ok .nop
  ∧ decodeLanes [0x01#8, 0x00#8, 0x00#8, 0x00#8] = .ok .take
  ∧ decodeLanes [0x02#8, 0x00#8, 0x00#8, 0x00#8] = .ok .decode
  ∧ decodeLanes [0x03#8, 0x00#8, 0x00#8, 0x00#8] = .ok .resolve
  ∧ decodeLanes [0x11#8, 0x00#8, 0x00#8, 0x00#8] = .ok (.illegal 0x00000011#32)
  ∧ decodeLanes [0x00#8, 0x00#8, 0x00#8, 0x01#8] = .ok (.illegal 0x01000000#32)

/-- 20_memory.md R74: byte lane j carries bits 8j+7 to 8j of the word, lane 0 lies lowest, and the four
lanes give the word back. -/
def Obligations.ByteLanesAreLittleEndian : Prop :=
  ∀ w : Word, wordOfLanes (lanesOf w) = .ok w ∧ (lanesOf w).length = 4
    ∧ ∀ j < 4, ∃ b, (lanesOf w)[j]? = some b ∧ ∀ n < 8, b.getLsbD n = w.getLsbD (8 * j + n)
end

