-- ==== Sys2Proof/Laws/State.lean ====
section
/-! SUPPORT. One lemma for each field of State under each named update, so that no later proof unfolds
an update. -/

namespace Sys2Proof.Machine

/-! ### setBaseline -/

@[simp] theorem setBaseline_cfg (now : Tick) (s : State) : (setBaseline now s).cfg = s.cfg := rfl
@[simp] theorem setBaseline_buf (now : Tick) (s : State) : (setBaseline now s).buf = s.buf := rfl
@[simp] theorem setBaseline_prevValid (now : Tick) (s : State) : (setBaseline now s).prevValid = true := rfl
@[simp] theorem setBaseline_prevTime (now : Tick) (s : State) : (setBaseline now s).prevTime = now := rfl
@[simp] theorem setBaseline_ovf (now : Tick) (s : State) : (setBaseline now s).ovf = s.ovf := rfl
@[simp] theorem setBaseline_snap (now : Tick) (s : State) : (setBaseline now s).snap = s.snap := rfl
@[simp] theorem setBaseline_snapOvf (now : Tick) (s : State) : (setBaseline now s).snapOvf = s.snapOvf := rfl
@[simp] theorem setBaseline_outcome (now : Tick) (s : State) : (setBaseline now s).outcome = s.outcome := rfl
@[simp] theorem setBaseline_failIndex (now : Tick) (s : State) : (setBaseline now s).failIndex = s.failIndex := rfl
@[simp] theorem setBaseline_code (now : Tick) (s : State) : (setBaseline now s).code = s.code := rfl
@[simp] theorem setBaseline_key (now : Tick) (s : State) : (setBaseline now s).key = s.key := rfl
@[simp] theorem setBaseline_dist (now : Tick) (s : State) : (setBaseline now s).dist = s.dist := rfl
@[simp] theorem setBaseline_faultCmd (now : Tick) (s : State) : (setBaseline now s).faultCmd = s.faultCmd := rfl
@[simp] theorem setBaseline_faultBus (now : Tick) (s : State) : (setBaseline now s).faultBus = s.faultBus := rfl
@[simp] theorem setBaseline_ticks (now : Tick) (s : State) : (setBaseline now s).ticks = s.ticks := rfl
@[simp] theorem setBaseline_arrivals (now : Tick) (s : State) : (setBaseline now s).arrivals = s.arrivals := rfl
@[simp] theorem setBaseline_rdData (now : Tick) (s : State) : (setBaseline now s).rdData = s.rdData := rfl

/-! ### appendInterval -/

@[simp] theorem appendInterval_cfg (delta : Interval) (s : State) : (appendInterval delta s).cfg = s.cfg := rfl
@[simp] theorem appendInterval_buf (delta : Interval) (s : State) : (appendInterval delta s).buf = s.buf ++ [delta] := rfl
@[simp] theorem appendInterval_prevValid (delta : Interval) (s : State) : (appendInterval delta s).prevValid = s.prevValid := rfl
@[simp] theorem appendInterval_prevTime (delta : Interval) (s : State) : (appendInterval delta s).prevTime = s.prevTime := rfl
@[simp] theorem appendInterval_ovf (delta : Interval) (s : State) : (appendInterval delta s).ovf = s.ovf := rfl
@[simp] theorem appendInterval_snap (delta : Interval) (s : State) : (appendInterval delta s).snap = s.snap := rfl
@[simp] theorem appendInterval_snapOvf (delta : Interval) (s : State) : (appendInterval delta s).snapOvf = s.snapOvf := rfl
@[simp] theorem appendInterval_outcome (delta : Interval) (s : State) : (appendInterval delta s).outcome = s.outcome := rfl
@[simp] theorem appendInterval_failIndex (delta : Interval) (s : State) : (appendInterval delta s).failIndex = s.failIndex := rfl
@[simp] theorem appendInterval_code (delta : Interval) (s : State) : (appendInterval delta s).code = s.code := rfl
@[simp] theorem appendInterval_key (delta : Interval) (s : State) : (appendInterval delta s).key = s.key := rfl
@[simp] theorem appendInterval_dist (delta : Interval) (s : State) : (appendInterval delta s).dist = s.dist := rfl
@[simp] theorem appendInterval_faultCmd (delta : Interval) (s : State) : (appendInterval delta s).faultCmd = s.faultCmd := rfl
@[simp] theorem appendInterval_faultBus (delta : Interval) (s : State) : (appendInterval delta s).faultBus = s.faultBus := rfl
@[simp] theorem appendInterval_ticks (delta : Interval) (s : State) : (appendInterval delta s).ticks = s.ticks := rfl
@[simp] theorem appendInterval_arrivals (delta : Interval) (s : State) : (appendInterval delta s).arrivals = s.arrivals := rfl
@[simp] theorem appendInterval_rdData (delta : Interval) (s : State) : (appendInterval delta s).rdData = s.rdData := rfl

/-! ### setOverflow -/

@[simp] theorem setOverflow_cfg (s : State) : (setOverflow s).cfg = s.cfg := rfl
@[simp] theorem setOverflow_buf (s : State) : (setOverflow s).buf = s.buf := rfl
@[simp] theorem setOverflow_prevValid (s : State) : (setOverflow s).prevValid = s.prevValid := rfl
@[simp] theorem setOverflow_prevTime (s : State) : (setOverflow s).prevTime = s.prevTime := rfl
@[simp] theorem setOverflow_ovf (s : State) : (setOverflow s).ovf = true := rfl
@[simp] theorem setOverflow_snap (s : State) : (setOverflow s).snap = s.snap := rfl
@[simp] theorem setOverflow_snapOvf (s : State) : (setOverflow s).snapOvf = s.snapOvf := rfl
@[simp] theorem setOverflow_outcome (s : State) : (setOverflow s).outcome = s.outcome := rfl
@[simp] theorem setOverflow_failIndex (s : State) : (setOverflow s).failIndex = s.failIndex := rfl
@[simp] theorem setOverflow_code (s : State) : (setOverflow s).code = s.code := rfl
@[simp] theorem setOverflow_key (s : State) : (setOverflow s).key = s.key := rfl
@[simp] theorem setOverflow_dist (s : State) : (setOverflow s).dist = s.dist := rfl
@[simp] theorem setOverflow_faultCmd (s : State) : (setOverflow s).faultCmd = s.faultCmd := rfl
@[simp] theorem setOverflow_faultBus (s : State) : (setOverflow s).faultBus = s.faultBus := rfl
@[simp] theorem setOverflow_ticks (s : State) : (setOverflow s).ticks = s.ticks := rfl
@[simp] theorem setOverflow_arrivals (s : State) : (setOverflow s).arrivals = s.arrivals := rfl
@[simp] theorem setOverflow_rdData (s : State) : (setOverflow s).rdData = s.rdData := rfl

/-! ### exchangeBuffer -/

@[simp] theorem exchangeBuffer_cfg (s : State) : (exchangeBuffer s).cfg = s.cfg := rfl
@[simp] theorem exchangeBuffer_buf (s : State) : (exchangeBuffer s).buf = [] := rfl
@[simp] theorem exchangeBuffer_prevValid (s : State) : (exchangeBuffer s).prevValid = false := rfl
@[simp] theorem exchangeBuffer_prevTime (s : State) : (exchangeBuffer s).prevTime = s.prevTime := rfl
@[simp] theorem exchangeBuffer_ovf (s : State) : (exchangeBuffer s).ovf = false := rfl
@[simp] theorem exchangeBuffer_snap (s : State) : (exchangeBuffer s).snap = s.buf := rfl
@[simp] theorem exchangeBuffer_snapOvf (s : State) : (exchangeBuffer s).snapOvf = s.ovf := rfl
@[simp] theorem exchangeBuffer_outcome (s : State) : (exchangeBuffer s).outcome = s.outcome := rfl
@[simp] theorem exchangeBuffer_failIndex (s : State) : (exchangeBuffer s).failIndex = s.failIndex := rfl
@[simp] theorem exchangeBuffer_code (s : State) : (exchangeBuffer s).code = s.code := rfl
@[simp] theorem exchangeBuffer_key (s : State) : (exchangeBuffer s).key = s.key := rfl
@[simp] theorem exchangeBuffer_dist (s : State) : (exchangeBuffer s).dist = s.dist := rfl
@[simp] theorem exchangeBuffer_faultCmd (s : State) : (exchangeBuffer s).faultCmd = s.faultCmd := rfl
@[simp] theorem exchangeBuffer_faultBus (s : State) : (exchangeBuffer s).faultBus = s.faultBus := rfl
@[simp] theorem exchangeBuffer_ticks (s : State) : (exchangeBuffer s).ticks = s.ticks := rfl
@[simp] theorem exchangeBuffer_arrivals (s : State) : (exchangeBuffer s).arrivals = s.arrivals := rfl
@[simp] theorem exchangeBuffer_rdData (s : State) : (exchangeBuffer s).rdData = s.rdData := rfl

/-! ### writeDecode -/

@[simp] theorem writeDecode_cfg (o : DecodeOutcome) (i : BitVec 7) (c : Word) (s : State) : (writeDecode o i c s).cfg = s.cfg := rfl
@[simp] theorem writeDecode_buf (o : DecodeOutcome) (i : BitVec 7) (c : Word) (s : State) : (writeDecode o i c s).buf = s.buf := rfl
@[simp] theorem writeDecode_prevValid (o : DecodeOutcome) (i : BitVec 7) (c : Word) (s : State) : (writeDecode o i c s).prevValid = s.prevValid := rfl
@[simp] theorem writeDecode_prevTime (o : DecodeOutcome) (i : BitVec 7) (c : Word) (s : State) : (writeDecode o i c s).prevTime = s.prevTime := rfl
@[simp] theorem writeDecode_ovf (o : DecodeOutcome) (i : BitVec 7) (c : Word) (s : State) : (writeDecode o i c s).ovf = s.ovf := rfl
@[simp] theorem writeDecode_snap (o : DecodeOutcome) (i : BitVec 7) (c : Word) (s : State) : (writeDecode o i c s).snap = s.snap := rfl
@[simp] theorem writeDecode_snapOvf (o : DecodeOutcome) (i : BitVec 7) (c : Word) (s : State) : (writeDecode o i c s).snapOvf = s.snapOvf := rfl
@[simp] theorem writeDecode_outcome (o : DecodeOutcome) (i : BitVec 7) (c : Word) (s : State) : (writeDecode o i c s).outcome = o := rfl
@[simp] theorem writeDecode_failIndex (o : DecodeOutcome) (i : BitVec 7) (c : Word) (s : State) : (writeDecode o i c s).failIndex = i := rfl
@[simp] theorem writeDecode_code (o : DecodeOutcome) (i : BitVec 7) (c : Word) (s : State) : (writeDecode o i c s).code = c := rfl
@[simp] theorem writeDecode_key (o : DecodeOutcome) (i : BitVec 7) (c : Word) (s : State) : (writeDecode o i c s).key = s.key := rfl
@[simp] theorem writeDecode_dist (o : DecodeOutcome) (i : BitVec 7) (c : Word) (s : State) : (writeDecode o i c s).dist = s.dist := rfl
@[simp] theorem writeDecode_faultCmd (o : DecodeOutcome) (i : BitVec 7) (c : Word) (s : State) : (writeDecode o i c s).faultCmd = s.faultCmd := rfl
@[simp] theorem writeDecode_faultBus (o : DecodeOutcome) (i : BitVec 7) (c : Word) (s : State) : (writeDecode o i c s).faultBus = s.faultBus := rfl
@[simp] theorem writeDecode_ticks (o : DecodeOutcome) (i : BitVec 7) (c : Word) (s : State) : (writeDecode o i c s).ticks = s.ticks := rfl
@[simp] theorem writeDecode_arrivals (o : DecodeOutcome) (i : BitVec 7) (c : Word) (s : State) : (writeDecode o i c s).arrivals = s.arrivals := rfl
@[simp] theorem writeDecode_rdData (o : DecodeOutcome) (i : BitVec 7) (c : Word) (s : State) : (writeDecode o i c s).rdData = s.rdData := rfl

/-! ### writeMatch -/

@[simp] theorem writeMatch_cfg (k : BitVec 16) (d : Word) (s : State) : (writeMatch k d s).cfg = s.cfg := rfl
@[simp] theorem writeMatch_buf (k : BitVec 16) (d : Word) (s : State) : (writeMatch k d s).buf = s.buf := rfl
@[simp] theorem writeMatch_prevValid (k : BitVec 16) (d : Word) (s : State) : (writeMatch k d s).prevValid = s.prevValid := rfl
@[simp] theorem writeMatch_prevTime (k : BitVec 16) (d : Word) (s : State) : (writeMatch k d s).prevTime = s.prevTime := rfl
@[simp] theorem writeMatch_ovf (k : BitVec 16) (d : Word) (s : State) : (writeMatch k d s).ovf = s.ovf := rfl
@[simp] theorem writeMatch_snap (k : BitVec 16) (d : Word) (s : State) : (writeMatch k d s).snap = s.snap := rfl
@[simp] theorem writeMatch_snapOvf (k : BitVec 16) (d : Word) (s : State) : (writeMatch k d s).snapOvf = s.snapOvf := rfl
@[simp] theorem writeMatch_outcome (k : BitVec 16) (d : Word) (s : State) : (writeMatch k d s).outcome = s.outcome := rfl
@[simp] theorem writeMatch_failIndex (k : BitVec 16) (d : Word) (s : State) : (writeMatch k d s).failIndex = s.failIndex := rfl
@[simp] theorem writeMatch_code (k : BitVec 16) (d : Word) (s : State) : (writeMatch k d s).code = s.code := rfl
@[simp] theorem writeMatch_key (k : BitVec 16) (d : Word) (s : State) : (writeMatch k d s).key = k := rfl
@[simp] theorem writeMatch_dist (k : BitVec 16) (d : Word) (s : State) : (writeMatch k d s).dist = d := rfl
@[simp] theorem writeMatch_faultCmd (k : BitVec 16) (d : Word) (s : State) : (writeMatch k d s).faultCmd = s.faultCmd := rfl
@[simp] theorem writeMatch_faultBus (k : BitVec 16) (d : Word) (s : State) : (writeMatch k d s).faultBus = s.faultBus := rfl
@[simp] theorem writeMatch_ticks (k : BitVec 16) (d : Word) (s : State) : (writeMatch k d s).ticks = s.ticks := rfl
@[simp] theorem writeMatch_arrivals (k : BitVec 16) (d : Word) (s : State) : (writeMatch k d s).arrivals = s.arrivals := rfl
@[simp] theorem writeMatch_rdData (k : BitVec 16) (d : Word) (s : State) : (writeMatch k d s).rdData = s.rdData := rfl

/-! ### writeCode -/

@[simp] theorem writeCode_cfg (v : Word) (s : State) : (writeCode v s).cfg = s.cfg := rfl
@[simp] theorem writeCode_buf (v : Word) (s : State) : (writeCode v s).buf = s.buf := rfl
@[simp] theorem writeCode_prevValid (v : Word) (s : State) : (writeCode v s).prevValid = s.prevValid := rfl
@[simp] theorem writeCode_prevTime (v : Word) (s : State) : (writeCode v s).prevTime = s.prevTime := rfl
@[simp] theorem writeCode_ovf (v : Word) (s : State) : (writeCode v s).ovf = s.ovf := rfl
@[simp] theorem writeCode_snap (v : Word) (s : State) : (writeCode v s).snap = s.snap := rfl
@[simp] theorem writeCode_snapOvf (v : Word) (s : State) : (writeCode v s).snapOvf = s.snapOvf := rfl
@[simp] theorem writeCode_outcome (v : Word) (s : State) : (writeCode v s).outcome = s.outcome := rfl
@[simp] theorem writeCode_failIndex (v : Word) (s : State) : (writeCode v s).failIndex = s.failIndex := rfl
@[simp] theorem writeCode_code (v : Word) (s : State) : (writeCode v s).code = v := rfl
@[simp] theorem writeCode_key (v : Word) (s : State) : (writeCode v s).key = s.key := rfl
@[simp] theorem writeCode_dist (v : Word) (s : State) : (writeCode v s).dist = s.dist := rfl
@[simp] theorem writeCode_faultCmd (v : Word) (s : State) : (writeCode v s).faultCmd = s.faultCmd := rfl
@[simp] theorem writeCode_faultBus (v : Word) (s : State) : (writeCode v s).faultBus = s.faultBus := rfl
@[simp] theorem writeCode_ticks (v : Word) (s : State) : (writeCode v s).ticks = s.ticks := rfl
@[simp] theorem writeCode_arrivals (v : Word) (s : State) : (writeCode v s).arrivals = s.arrivals := rfl
@[simp] theorem writeCode_rdData (v : Word) (s : State) : (writeCode v s).rdData = s.rdData := rfl

/-! ### returnData -/

@[simp] theorem returnData_cfg (v : Word) (s : State) : (returnData v s).cfg = s.cfg := rfl
@[simp] theorem returnData_buf (v : Word) (s : State) : (returnData v s).buf = s.buf := rfl
@[simp] theorem returnData_prevValid (v : Word) (s : State) : (returnData v s).prevValid = s.prevValid := rfl
@[simp] theorem returnData_prevTime (v : Word) (s : State) : (returnData v s).prevTime = s.prevTime := rfl
@[simp] theorem returnData_ovf (v : Word) (s : State) : (returnData v s).ovf = s.ovf := rfl
@[simp] theorem returnData_snap (v : Word) (s : State) : (returnData v s).snap = s.snap := rfl
@[simp] theorem returnData_snapOvf (v : Word) (s : State) : (returnData v s).snapOvf = s.snapOvf := rfl
@[simp] theorem returnData_outcome (v : Word) (s : State) : (returnData v s).outcome = s.outcome := rfl
@[simp] theorem returnData_failIndex (v : Word) (s : State) : (returnData v s).failIndex = s.failIndex := rfl
@[simp] theorem returnData_code (v : Word) (s : State) : (returnData v s).code = s.code := rfl
@[simp] theorem returnData_key (v : Word) (s : State) : (returnData v s).key = s.key := rfl
@[simp] theorem returnData_dist (v : Word) (s : State) : (returnData v s).dist = s.dist := rfl
@[simp] theorem returnData_faultCmd (v : Word) (s : State) : (returnData v s).faultCmd = s.faultCmd := rfl
@[simp] theorem returnData_faultBus (v : Word) (s : State) : (returnData v s).faultBus = s.faultBus := rfl
@[simp] theorem returnData_ticks (v : Word) (s : State) : (returnData v s).ticks = s.ticks := rfl
@[simp] theorem returnData_arrivals (v : Word) (s : State) : (returnData v s).arrivals = s.arrivals := rfl
@[simp] theorem returnData_rdData (v : Word) (s : State) : (returnData v s).rdData = v := rfl

/-! ### raiseFault bus -/

@[simp] theorem raiseFault_bus_cfg (s : State) : (raiseFault .bus s).cfg = s.cfg := rfl
@[simp] theorem raiseFault_bus_buf (s : State) : (raiseFault .bus s).buf = s.buf := rfl
@[simp] theorem raiseFault_bus_prevValid (s : State) : (raiseFault .bus s).prevValid = s.prevValid := rfl
@[simp] theorem raiseFault_bus_prevTime (s : State) : (raiseFault .bus s).prevTime = s.prevTime := rfl
@[simp] theorem raiseFault_bus_ovf (s : State) : (raiseFault .bus s).ovf = s.ovf := rfl
@[simp] theorem raiseFault_bus_snap (s : State) : (raiseFault .bus s).snap = s.snap := rfl
@[simp] theorem raiseFault_bus_snapOvf (s : State) : (raiseFault .bus s).snapOvf = s.snapOvf := rfl
@[simp] theorem raiseFault_bus_outcome (s : State) : (raiseFault .bus s).outcome = s.outcome := rfl
@[simp] theorem raiseFault_bus_failIndex (s : State) : (raiseFault .bus s).failIndex = s.failIndex := rfl
@[simp] theorem raiseFault_bus_code (s : State) : (raiseFault .bus s).code = s.code := rfl
@[simp] theorem raiseFault_bus_key (s : State) : (raiseFault .bus s).key = s.key := rfl
@[simp] theorem raiseFault_bus_dist (s : State) : (raiseFault .bus s).dist = s.dist := rfl
@[simp] theorem raiseFault_bus_faultCmd (s : State) : (raiseFault .bus s).faultCmd = s.faultCmd := rfl
@[simp] theorem raiseFault_bus_faultBus (s : State) : (raiseFault .bus s).faultBus = true := rfl
@[simp] theorem raiseFault_bus_ticks (s : State) : (raiseFault .bus s).ticks = s.ticks := rfl
@[simp] theorem raiseFault_bus_arrivals (s : State) : (raiseFault .bus s).arrivals = s.arrivals := rfl
@[simp] theorem raiseFault_bus_rdData (s : State) : (raiseFault .bus s).rdData = s.rdData := rfl

/-! ### raiseFault command -/

@[simp] theorem raiseFault_command_cfg (s : State) : (raiseFault .command s).cfg = s.cfg := rfl
@[simp] theorem raiseFault_command_buf (s : State) : (raiseFault .command s).buf = s.buf := rfl
@[simp] theorem raiseFault_command_prevValid (s : State) : (raiseFault .command s).prevValid = s.prevValid := rfl
@[simp] theorem raiseFault_command_prevTime (s : State) : (raiseFault .command s).prevTime = s.prevTime := rfl
@[simp] theorem raiseFault_command_ovf (s : State) : (raiseFault .command s).ovf = s.ovf := rfl
@[simp] theorem raiseFault_command_snap (s : State) : (raiseFault .command s).snap = s.snap := rfl
@[simp] theorem raiseFault_command_snapOvf (s : State) : (raiseFault .command s).snapOvf = s.snapOvf := rfl
@[simp] theorem raiseFault_command_outcome (s : State) : (raiseFault .command s).outcome = s.outcome := rfl
@[simp] theorem raiseFault_command_failIndex (s : State) : (raiseFault .command s).failIndex = s.failIndex := rfl
@[simp] theorem raiseFault_command_code (s : State) : (raiseFault .command s).code = s.code := rfl
@[simp] theorem raiseFault_command_key (s : State) : (raiseFault .command s).key = s.key := rfl
@[simp] theorem raiseFault_command_dist (s : State) : (raiseFault .command s).dist = s.dist := rfl
@[simp] theorem raiseFault_command_faultCmd (s : State) : (raiseFault .command s).faultCmd = true := rfl
@[simp] theorem raiseFault_command_faultBus (s : State) : (raiseFault .command s).faultBus = s.faultBus := rfl
@[simp] theorem raiseFault_command_ticks (s : State) : (raiseFault .command s).ticks = s.ticks := rfl
@[simp] theorem raiseFault_command_arrivals (s : State) : (raiseFault .command s).arrivals = s.arrivals := rfl
@[simp] theorem raiseFault_command_rdData (s : State) : (raiseFault .command s).rdData = s.rdData := rfl

/-! ### assertReset -/

@[simp] theorem assertReset_cfg (s : State) : (assertReset s).cfg = s.cfg := rfl
@[simp] theorem assertReset_buf (s : State) : (assertReset s).buf = [] := rfl
@[simp] theorem assertReset_prevValid (s : State) : (assertReset s).prevValid = false := rfl
@[simp] theorem assertReset_prevTime (s : State) : (assertReset s).prevTime = 0#32 := rfl
@[simp] theorem assertReset_ovf (s : State) : (assertReset s).ovf = false := rfl
@[simp] theorem assertReset_snap (s : State) : (assertReset s).snap = [] := rfl
@[simp] theorem assertReset_snapOvf (s : State) : (assertReset s).snapOvf = false := rfl
@[simp] theorem assertReset_outcome (s : State) : (assertReset s).outcome = .none := rfl
@[simp] theorem assertReset_failIndex (s : State) : (assertReset s).failIndex = 0#7 := rfl
@[simp] theorem assertReset_code (s : State) : (assertReset s).code = 0#32 := rfl
@[simp] theorem assertReset_key (s : State) : (assertReset s).key = 0#16 := rfl
@[simp] theorem assertReset_dist (s : State) : (assertReset s).dist = 0#32 := rfl
@[simp] theorem assertReset_faultCmd (s : State) : (assertReset s).faultCmd = false := rfl
@[simp] theorem assertReset_faultBus (s : State) : (assertReset s).faultBus = false := rfl
@[simp] theorem assertReset_ticks (s : State) : (assertReset s).ticks = s.ticks := rfl
@[simp] theorem assertReset_arrivals (s : State) : (assertReset s).arrivals = s.arrivals := rfl
@[simp] theorem assertReset_rdData (s : State) : (assertReset s).rdData = s.rdData := rfl

/-! ### takeArrival -/

@[simp] theorem takeArrival_cfg (elapsed : Nat) (rest : List Arrival) (s : State) : (takeArrival elapsed rest s).cfg = s.cfg := rfl
@[simp] theorem takeArrival_buf (elapsed : Nat) (rest : List Arrival) (s : State) : (takeArrival elapsed rest s).buf = s.buf := rfl
@[simp] theorem takeArrival_prevValid (elapsed : Nat) (rest : List Arrival) (s : State) : (takeArrival elapsed rest s).prevValid = s.prevValid := rfl
@[simp] theorem takeArrival_prevTime (elapsed : Nat) (rest : List Arrival) (s : State) : (takeArrival elapsed rest s).prevTime = s.prevTime := rfl
@[simp] theorem takeArrival_ovf (elapsed : Nat) (rest : List Arrival) (s : State) : (takeArrival elapsed rest s).ovf = s.ovf := rfl
@[simp] theorem takeArrival_snap (elapsed : Nat) (rest : List Arrival) (s : State) : (takeArrival elapsed rest s).snap = s.snap := rfl
@[simp] theorem takeArrival_snapOvf (elapsed : Nat) (rest : List Arrival) (s : State) : (takeArrival elapsed rest s).snapOvf = s.snapOvf := rfl
@[simp] theorem takeArrival_outcome (elapsed : Nat) (rest : List Arrival) (s : State) : (takeArrival elapsed rest s).outcome = s.outcome := rfl
@[simp] theorem takeArrival_failIndex (elapsed : Nat) (rest : List Arrival) (s : State) : (takeArrival elapsed rest s).failIndex = s.failIndex := rfl
@[simp] theorem takeArrival_code (elapsed : Nat) (rest : List Arrival) (s : State) : (takeArrival elapsed rest s).code = s.code := rfl
@[simp] theorem takeArrival_key (elapsed : Nat) (rest : List Arrival) (s : State) : (takeArrival elapsed rest s).key = s.key := rfl
@[simp] theorem takeArrival_dist (elapsed : Nat) (rest : List Arrival) (s : State) : (takeArrival elapsed rest s).dist = s.dist := rfl
@[simp] theorem takeArrival_faultCmd (elapsed : Nat) (rest : List Arrival) (s : State) : (takeArrival elapsed rest s).faultCmd = s.faultCmd := rfl
@[simp] theorem takeArrival_faultBus (elapsed : Nat) (rest : List Arrival) (s : State) : (takeArrival elapsed rest s).faultBus = s.faultBus := rfl
@[simp] theorem takeArrival_ticks (elapsed : Nat) (rest : List Arrival) (s : State) : (takeArrival elapsed rest s).ticks = ticksAfter s.cfg s.ticks elapsed := rfl
@[simp] theorem takeArrival_arrivals (elapsed : Nat) (rest : List Arrival) (s : State) : (takeArrival elapsed rest s).arrivals = rest := rfl
@[simp] theorem takeArrival_rdData (elapsed : Nat) (rest : List Arrival) (s : State) : (takeArrival elapsed rest s).rdData = s.rdData := rfl

/-! ### After reset -/

@[simp] theorem resetWith_cfg (cfg : Config) (k : Tick) : (State.resetWith cfg k).cfg = cfg := rfl
@[simp] theorem resetWith_buf (cfg : Config) (k : Tick) : (State.resetWith cfg k).buf = [] := rfl
@[simp] theorem resetWith_prevValid (cfg : Config) (k : Tick) : (State.resetWith cfg k).prevValid = false := rfl
@[simp] theorem resetWith_prevTime (cfg : Config) (k : Tick) : (State.resetWith cfg k).prevTime = 0#32 := rfl
@[simp] theorem resetWith_ovf (cfg : Config) (k : Tick) : (State.resetWith cfg k).ovf = false := rfl
@[simp] theorem resetWith_snap (cfg : Config) (k : Tick) : (State.resetWith cfg k).snap = [] := rfl
@[simp] theorem resetWith_snapOvf (cfg : Config) (k : Tick) : (State.resetWith cfg k).snapOvf = false := rfl
@[simp] theorem resetWith_outcome (cfg : Config) (k : Tick) : (State.resetWith cfg k).outcome = .none := rfl
@[simp] theorem resetWith_failIndex (cfg : Config) (k : Tick) : (State.resetWith cfg k).failIndex = 0#7 := rfl
@[simp] theorem resetWith_code (cfg : Config) (k : Tick) : (State.resetWith cfg k).code = 0#32 := rfl
@[simp] theorem resetWith_key (cfg : Config) (k : Tick) : (State.resetWith cfg k).key = 0#16 := rfl
@[simp] theorem resetWith_dist (cfg : Config) (k : Tick) : (State.resetWith cfg k).dist = 0#32 := rfl
@[simp] theorem resetWith_faultCmd (cfg : Config) (k : Tick) : (State.resetWith cfg k).faultCmd = false := rfl
@[simp] theorem resetWith_faultBus (cfg : Config) (k : Tick) : (State.resetWith cfg k).faultBus = false := rfl
@[simp] theorem resetWith_ticks (cfg : Config) (k : Tick) : (State.resetWith cfg k).ticks = k := rfl
@[simp] theorem resetWith_arrivals (cfg : Config) (k : Tick) : (State.resetWith cfg k).arrivals = [] := rfl
@[simp] theorem resetWith_rdData (cfg : Config) (k : Tick) : (State.resetWith cfg k).rdData = 0#32 := rfl

end Sys2Proof.Machine
end

