-- ==== Sys2Proof/Laws/Ops.lean ====
section
/-! SUPPORT. What the shared operations can do, each said once: the guard on the configuration, time,
the effect of every operation, and one step. -/

namespace Sys2Proof.Machine

/-! ### A legal configuration -/

/-- The constraints of 00_scope.md R8 that later proofs use, from `wf`. -/
theorem wf_iff (cfg : Config) : cfg.wf = true ↔
    8 ≤ cfg.tickBits ∧ cfg.tickBits ≤ 32 ∧ 1 ≤ cfg.maxGap ∧ cfg.maxGap ≤ 2 ^ cfg.tickBits ∧
    cfg.hdrMark + cfg.tol ≤ cfg.maxGap ∧ cfg.hdrSpace + cfg.tol ≤ cfg.maxGap ∧
    cfg.bitMark + cfg.tol ≤ cfg.maxGap ∧ cfg.oneSpace + cfg.tol ≤ cfg.maxGap ∧
    cfg.zeroSpace + cfg.tol ≤ cfg.maxGap ∧ 68 ≤ cfg.minPulses ∧ 68 ≤ cfg.nBuf ∧ cfg.nBuf ≤ 256 ∧
    1 ≤ cfg.keyTable.length ∧ cfg.keyTable.length ≤ 65535 ∧ cfg.spacePriority = .oneFirst ∧
    cfg.trailerIndex = 66 ∧ cfg.base % 2048 = 0 := by
  change _ ↔ _ ∧ _ ∧ _ ∧ _ ∧ _ ∧ _ ∧ _ ∧ _ ∧ _ ∧ _ ∧ _ ∧ _ ∧ 1 ≤ cfg.keyCount ∧ cfg.keyCount ≤ 65535 ∧ _
  simp [Config.wf, Config.constraints, Config.nominalFits]

theorem wf_tickBits_le {cfg : Config} (h : cfg.wf = true) : cfg.tickBits ≤ 32 := ((wf_iff cfg).1 h).2.1

theorem wf_maxGap_le {cfg : Config} (h : cfg.wf = true) : cfg.maxGap ≤ 2 ^ cfg.tickBits :=
  ((wf_iff cfg).1 h).2.2.2.1

theorem wf_minPulses {cfg : Config} (h : cfg.wf = true) : 68 ≤ cfg.minPulses :=
  ((wf_iff cfg).1 h).2.2.2.2.2.2.2.2.2.1

theorem wf_nBuf {cfg : Config} (h : cfg.wf = true) : 68 ≤ cfg.nBuf ∧ cfg.nBuf ≤ 256 := by
  obtain ⟨_, _, _, _, _, _, _, _, _, _, h1, h2, _⟩ := (wf_iff cfg).1 h
  exact ⟨h1, h2⟩

theorem wf_keyTable {cfg : Config} (h : cfg.wf = true) :
    1 ≤ cfg.keyTable.length ∧ cfg.keyTable.length ≤ 65535 := by
  obtain ⟨_, _, _, _, _, _, _, _, _, _, _, _, h1, h2, _⟩ := (wf_iff cfg).1 h
  exact ⟨h1, h2⟩

theorem wf_fixed {cfg : Config} (h : cfg.wf = true) :
    cfg.spacePriority = .oneFirst ∧ cfg.trailerIndex = 66 ∧ cfg.base % 2048 = 0 := by
  obtain ⟨_, _, _, _, _, _, _, _, _, _, _, _, _, _, h1, h2, h3⟩ := (wf_iff cfg).1 h
  exact ⟨h1, h2, h3⟩

/-- A power of two within W bits is within 32. -/
theorem two_pow_tickBits_le {cfg : Config} (h : cfg.wf = true) : 2 ^ cfg.tickBits ≤ 2 ^ 32 :=
  Nat.pow_le_pow_right (by decide) (wf_tickBits_le h)

/-! ### The guard -/

@[simp] theorem configured_of_wf {effect : State → State} {s : State} (h : s.cfg.wf = true) :
    configured effect s = .next (effect s) := by simp [configured, h]

theorem configured_of_not_wf {effect : State → State} {s : State} (h : s.cfg.wf = false) :
    configured effect s = .refused .illFormedConfig := by simp [configured, h]

/-- An operation that answers a next state had a legal configuration, and the state is its effect. -/
theorem configured_next {effect : State → State} {s t : State} (h : configured effect s = .next t) :
    s.cfg.wf = true ∧ t = effect s := by
  unfold configured at h
  split at h
  · next hw => exact ⟨hw, by simpa using h.symm⟩
  · simp at h

/-! ### The effect of an operation -/

/-- The state change of each operation; `exec` is this under the guard. -/
def effectOf : Instr → State → State
  | .edge now => captureEdge now
  | .nop => noEffect
  | .take => exchangeBuffer
  | .decode => decodeSnapshot
  | .resolve => resolveCode
  | .illegal word => refuseCommand word
  | .rd off width => readAccess off width
  | .wr off width value => writeAccess off width value

theorem exec_eq_configured (i : Instr) (s : State) : exec i s = configured (effectOf i) s := by
  cases i <;> rfl

theorem exec_of_wf (i : Instr) {s : State} (h : s.cfg.wf = true) : exec i s = .next (effectOf i s) := by
  rw [exec_eq_configured, configured_of_wf h]

theorem exec_next {i : Instr} {s t : State} (h : exec i s = .next t) :
    s.cfg.wf = true ∧ t = effectOf i s := by
  rw [exec_eq_configured] at h
  exact configured_next h

/-! ### Time -/

theorem ticksAfter_toNat {cfg : Config} (h : cfg.wf = true) (t : Tick) (e : Nat) :
    (ticksAfter cfg t e).toNat = (t.toNat + e) % 2 ^ cfg.tickBits := by
  have h1 : (t.toNat + e) % 2 ^ cfg.tickBits < 2 ^ cfg.tickBits := Nat.mod_lt _ (by positivity)
  have h2 := two_pow_tickBits_le h
  simp only [ticksAfter, BitVec.toNat_ofNat]
  exact Nat.mod_eq_of_lt (by omega)

theorem ticksAfter_lt {cfg : Config} (h : cfg.wf = true) (t : Tick) (e : Nat) :
    (ticksAfter cfg t e).toNat < 2 ^ cfg.tickBits := by
  rw [ticksAfter_toNat h]; exact Nat.mod_lt _ (by positivity)

/-! ### One step -/

theorem step_of_not_wf {s : State} (h : s.cfg.wf = false) : step s = .refused .illFormedConfig := by
  simp [step, h]

theorem step_idle {s : State} (h : s.cfg.wf = true) (hp : s.arrivals = []) : step s = .next s := by
  simp [step, h, hp]

theorem step_arrival {s : State} (h : s.cfg.wf = true) {a : Arrival} {rest : List Arrival}
    (hp : s.arrivals = a :: rest) : step s = performEvent a.event (takeArrival a.elapsed rest s) := by
  simp [step, h, hp]

/-- What a step can be, when it answers a next state: waiting, a reset, or an operation on the state that
the arrival leaves. -/
theorem step_cases {s t : State} (h : step s = .next t) :
    s.cfg.wf = true ∧
    ((s.arrivals = [] ∧ t = s) ∨
     ∃ a rest, s.arrivals = a :: rest ∧
      ((a.event = .reset ∧ t = assertReset (takeArrival a.elapsed rest s)) ∨
       ∃ o i, a.event = .operation o ∧
        decodeStimulus s.cfg (ticksAfter s.cfg s.ticks a.elapsed) o = .ok i ∧
        t = effectOf i (takeArrival a.elapsed rest s))) := by
  unfold step at h
  split at h
  · next hw =>
    refine ⟨hw, ?_⟩
    split at h
    · next hp => exact .inl ⟨hp, by simpa using h.symm⟩
    · next a rest hp =>
      refine .inr ⟨a, rest, hp, ?_⟩
      cases he : a.event with
      | reset =>
        simp only [he, performEvent, Host.Outcome.next.injEq] at h
        exact .inl ⟨rfl, h.symm⟩
      | operation o =>
        simp only [he, performEvent, performStimulus, takeArrival_cfg, takeArrival_ticks] at h
        split at h
        · next i hi => exact .inr ⟨o, i, rfl, hi, (exec_next h).2⟩
        · simp at h
  · simp at h

end Sys2Proof.Machine
end

