-- ==== Sys2Proof/Laws/Capture.lean ====
section
/-! SUPPORT. What the operations of Edge Capture do. -/

namespace Sys2Proof.Machine

/-- The interval as a number: the difference of the timestamps modulo 2^W (40_capture.md R123). -/
theorem tickDelta_toNat {cfg : Config} (h : cfg.wf = true) (now prev : Tick) :
    (tickDelta cfg now prev).toNat = (((now.toNat : Int) - prev.toNat) % (2 ^ cfg.tickBits : Int)).toNat := by
  have hlt := two_pow_tickBits_le h
  have hpos : 0 < 2 ^ cfg.tickBits := by positivity
  have hdvd : 2 ^ cfg.tickBits ∣ 2 ^ 32 := pow_dvd_pow 2 (wf_tickBits_le h)
  have hm : (now - prev).toNat % 2 ^ cfg.tickBits < 2 ^ cfg.tickBits := Nat.mod_lt _ hpos
  have e1 : (tickDelta cfg now prev).toNat = (now - prev).toNat % 2 ^ cfg.tickBits := by
    simp only [tickDelta, BitVec.toNat_ofNat]
    exact Nat.mod_eq_of_lt (by omega)
  have hp := prev.isLt
  have e2 : (((now - prev).toNat : Int)) = ((now.toNat : Int) - prev.toNat) % ((2 ^ 32 : Nat) : Int) := by
    rw [BitVec.toNat_sub]
    push_cast
    omega
  have e3 : (((now - prev).toNat % 2 ^ cfg.tickBits : Nat) : Int)
      = ((now.toNat : Int) - prev.toNat) % (2 ^ cfg.tickBits : Int) := by
    rw [Int.natCast_emod, e2, Int.emod_emod_of_dvd _ (by exact_mod_cast hdvd)]
    push_cast
    rfl
  rw [e1, ← e3, Int.toNat_natCast]

theorem tickDelta_lt {cfg : Config} (h : cfg.wf = true) (now prev : Tick) :
    (tickDelta cfg now prev).toNat < 2 ^ cfg.tickBits := by
  have hlt := two_pow_tickBits_le h
  have hm : (now - prev).toNat % 2 ^ cfg.tickBits < 2 ^ cfg.tickBits := Nat.mod_lt _ (by positivity)
  simp only [tickDelta, BitVec.toNat_ofNat]
  rwa [Nat.mod_eq_of_lt (by omega)]

/-- What becomes of a measured interval: discarded, dropped with OVF set, or appended. -/
theorem recordInterval_cases (delta : Interval) (s : State) :
    (s.cfg.maxGap ≤ delta.toNat ∧ recordInterval delta s = s) ∨
    (delta.toNat < s.cfg.maxGap ∧ s.cfg.nBuf ≤ s.cnt ∧ recordInterval delta s = setOverflow s) ∨
    (delta.toNat < s.cfg.maxGap ∧ s.cnt < s.cfg.nBuf ∧ recordInterval delta s = appendInterval delta s) := by
  unfold recordInterval
  split
  · next h1 =>
    split
    · next h2 => exact .inr (.inr ⟨h1, h2, rfl⟩)
    · next h2 => exact .inr (.inl ⟨h1, by omega, rfl⟩)
  · next h1 => exact .inl ⟨by omega, rfl⟩

/-- What EDGE can do: set the first baseline, or move it and discard, drop or append the interval. -/
theorem captureEdge_cases (now : Tick) (s : State) :
    (s.prevValid = false ∧ captureEdge now s = setBaseline now s) ∨
    (s.prevValid = true ∧ s.cfg.maxGap ≤ (tickDelta s.cfg now s.prevTime).toNat ∧
      captureEdge now s = setBaseline now s) ∨
    (s.prevValid = true ∧ (tickDelta s.cfg now s.prevTime).toNat < s.cfg.maxGap ∧ s.cfg.nBuf ≤ s.cnt ∧
      captureEdge now s = setBaseline now (setOverflow s)) ∨
    (s.prevValid = true ∧ (tickDelta s.cfg now s.prevTime).toNat < s.cfg.maxGap ∧ s.cnt < s.cfg.nBuf ∧
      captureEdge now s = setBaseline now (appendInterval (tickDelta s.cfg now s.prevTime) s)) := by
  cases hv : s.prevValid with
  | false => exact .inl ⟨rfl, by simp [captureEdge, hv]⟩
  | true =>
    refine .inr ?_
    have hc : captureEdge now s = setBaseline now (recordInterval (tickDelta s.cfg now s.prevTime) s) := by
      simp [captureEdge, hv]
    rcases recordInterval_cases (tickDelta s.cfg now s.prevTime) s with ⟨h, e⟩ | ⟨h1, h2, e⟩ | ⟨h1, h2, e⟩
    · exact .inl ⟨rfl, h, by rw [hc, e]⟩
    · exact .inr (.inl ⟨rfl, h1, h2, by rw [hc, e]⟩)
    · exact .inr (.inr ⟨rfl, h1, h2, by rw [hc, e]⟩)

end Sys2Proof.Machine
end

