-- ==== Sys2Proof/Laws/Decoder.lean ====
section
/-! SUPPORT. What MATCH, the reading of a space, the loop of DECODE and its report do. -/

namespace Sys2Proof.Machine

/-- MATCH in the terms of the claims (41_decoder.md R150). -/
theorem matchNominal_iff (cfg : Config) (v : Interval) (t : Nat) :
    matchNominal cfg v t = true ↔ inWindow cfg v.toNat t := by
  simp [matchNominal, inWindow]

/-- The reading of a space under a legal configuration: One Space first (41_decoder.md R152). -/
theorem readSpace_eq {cfg : Config} (h : cfg.wf = true) (v : Interval) : readSpace cfg v =
    if matchNominal cfg v cfg.oneSpace then some true
    else if matchNominal cfg v cfg.zeroSpace then some false else none := by
  simp [readSpace, (wf_fixed h).1]

/-- A space is read as some bit exactly when it is in one of the windows. -/
theorem readSpace_isSome_iff {cfg : Config} (h : cfg.wf = true) (v : Interval) :
    (readSpace cfg v).isSome = true ↔ inWindow cfg v.toNat cfg.oneSpace ∨ inWindow cfg v.toNat cfg.zeroSpace := by
  rw [readSpace_eq h, ← matchNominal_iff, ← matchNominal_iff]
  cases matchNominal cfg v cfg.oneSpace <;> cases matchNominal cfg v cfg.zeroSpace <;> simp

/-- The bit that is read is whether the space matches One Space. -/
theorem readSpace_some {cfg : Config} (h : cfg.wf = true) {v : Interval} {b : Bool}
    (hb : readSpace cfg v = some b) : b = true ↔ inWindow cfg v.toNat cfg.oneSpace := by
  rw [readSpace_eq h] at hb
  rw [← matchNominal_iff]
  revert hb
  cases matchNominal cfg v cfg.oneSpace <;> cases matchNominal cfg v cfg.zeroSpace <;> cases b <;> simp

/-- The pulse that the decoder reads is the interval of the claims. -/
theorem pulseAt_toNat (p : List Interval) (k : Nat) : (pulseAt p k).toNat = intervalAt p k := rfl

/-- Bit 0 of the shifted code is the new bit; every other bit is the one below it (41_decoder.md R161). -/
theorem shiftIn_getLsbD (code : Word) (b : Bool) (n : Nat) (hn : n < 32) :
    (shiftIn code b).getLsbD n = if n = 0 then b else code.getLsbD (n - 1) := by
  have h : shiftIn code b = (code <<< 1) ||| (BitVec.ofBool b).setWidth 32 := by
    unfold shiftIn
    apply BitVec.add_eq_or_of_and_eq_zero
    apply BitVec.eq_of_getLsbD_eq
    intro i hi
    cases b <;> simp
    omega
  rw [h]
  cases n with
  | zero => simp
  | succ m => simp; omega

/-- One round of the loop: the mark, then the space, then the rest (41_decoder.md R159, R160). -/
theorem decodeBits_succ (cfg : Config) (p : List Interval) (n i : Nat) (code : Word) :
    decodeBits cfg p (n + 1) i code =
      if matchNominal cfg (pulseAt p i) cfg.bitMark then
        match readSpace cfg (pulseAt p (i + 1)) with
        | some bit => decodeBits cfg p n (i + 2) (shiftIn code bit)
        | none => .error ⟨.bitSpaceMismatch, i + 1⟩
      else .error ⟨.bitMarkMismatch, i⟩ := rfl

/-- What the loop can answer: every pair is good, or a first bad mark, or a first bad space. -/
theorem decodeBits_cases {cfg : Config} (h : cfg.wf = true) (p : List Interval) (n i : Nat) (code : Word) :
    (∃ c, decodeBits cfg p n i code = .ok c ∧
      (∀ j < n, inWindow cfg (intervalAt p (i + 2 * j)) cfg.bitMark ∧
        (inWindow cfg (intervalAt p (i + 1 + 2 * j)) cfg.oneSpace ∨
          inWindow cfg (intervalAt p (i + 1 + 2 * j)) cfg.zeroSpace)) ∧
      (∀ m < 32, c.getLsbD m = true ↔
        if m < n then inWindow cfg (intervalAt p (i + 1 + 2 * (n - 1 - m))) cfg.oneSpace
        else code.getLsbD (m - n) = true)) ∨
    (∃ j < n, (∀ k < j, inWindow cfg (intervalAt p (i + 2 * k)) cfg.bitMark ∧
        (inWindow cfg (intervalAt p (i + 1 + 2 * k)) cfg.oneSpace ∨
          inWindow cfg (intervalAt p (i + 1 + 2 * k)) cfg.zeroSpace)) ∧
      ((¬ inWindow cfg (intervalAt p (i + 2 * j)) cfg.bitMark ∧
          decodeBits cfg p n i code = .error ⟨.bitMarkMismatch, i + 2 * j⟩) ∨
        (inWindow cfg (intervalAt p (i + 2 * j)) cfg.bitMark ∧
          ¬ (inWindow cfg (intervalAt p (i + 1 + 2 * j)) cfg.oneSpace ∨
            inWindow cfg (intervalAt p (i + 1 + 2 * j)) cfg.zeroSpace) ∧
          decodeBits cfg p n i code = .error ⟨.bitSpaceMismatch, i + 1 + 2 * j⟩))) := by
  induction n generalizing i code with
  | zero => exact .inl ⟨code, rfl, by simp, by simp⟩
  | succ n ih =>
    rw [decodeBits_succ]
    by_cases hm : matchNominal cfg (pulseAt p i) cfg.bitMark = true
    · have hm' := (matchNominal_iff ..).1 hm
      rw [pulseAt_toNat] at hm'
      rw [if_pos hm]
      cases hs : readSpace cfg (pulseAt p (i + 1)) with
      | none =>
        have hsp : ¬ (inWindow cfg (intervalAt p (i + 1)) cfg.oneSpace ∨
            inWindow cfg (intervalAt p (i + 1)) cfg.zeroSpace) := by
          rw [← pulseAt_toNat, ← readSpace_isSome_iff h, hs]; simp
        exact .inr ⟨0, by omega, by simp, .inr ⟨hm', hsp, rfl⟩⟩
      | some b =>
        have hsp : inWindow cfg (intervalAt p (i + 1)) cfg.oneSpace ∨
            inWindow cfg (intervalAt p (i + 1)) cfg.zeroSpace := by
          rw [← pulseAt_toNat, ← readSpace_isSome_iff h, hs]; rfl
        have hb := readSpace_some h hs
        rw [pulseAt_toNat] at hb
        have e1 : ∀ k, i + 2 * (k + 1) = i + 2 + 2 * k := by omega
        have e2 : ∀ k, i + 1 + 2 * (k + 1) = i + 2 + 1 + 2 * k := by omega
        have first : ∀ k, (∀ j < k, inWindow cfg (intervalAt p (i + 2 + 2 * j)) cfg.bitMark ∧
            (inWindow cfg (intervalAt p (i + 2 + 1 + 2 * j)) cfg.oneSpace ∨
              inWindow cfg (intervalAt p (i + 2 + 1 + 2 * j)) cfg.zeroSpace)) →
            ∀ j < k + 1, inWindow cfg (intervalAt p (i + 2 * j)) cfg.bitMark ∧
            (inWindow cfg (intervalAt p (i + 1 + 2 * j)) cfg.oneSpace ∨
              inWindow cfg (intervalAt p (i + 1 + 2 * j)) cfg.zeroSpace) := by
          intro k hk j hj
          cases j with
          | zero => exact ⟨hm', hsp⟩
          | succ j => rw [e1, e2]; exact hk j (by omega)
        rcases ih (i + 2) (shiftIn code b) with ⟨c, hc, hall, hbits⟩ | ⟨j, hj, hbefore, hfail⟩
        · refine .inl ⟨c, hc, first n hall, fun m hm32 => ?_⟩
          rw [hbits m hm32]
          by_cases h1 : m < n
          · have e3 : i + 2 + 1 + 2 * (n - 1 - m) = i + 1 + 2 * (n + 1 - 1 - m) := by omega
            rw [if_pos h1, if_pos (by omega), e3]
          · rw [if_neg h1, shiftIn_getLsbD _ _ _ (by omega)]
            by_cases h2 : m = n
            · subst h2
              simp [hb]
            · rw [if_neg (by omega), if_neg (by omega)]
              have e4 : m - n - 1 = m - (n + 1) := by omega
              rw [e4]
        · refine .inr ⟨j + 1, by omega, first j hbefore, ?_⟩
          rw [e1, e2]
          exact hfail
    · have hm' : ¬ inWindow cfg (intervalAt p i) cfg.bitMark := by
        rw [← pulseAt_toNat, ← matchNominal_iff]; exact hm
      rw [if_neg hm]
      exact .inr ⟨0, by omega, by simp, .inl ⟨hm', rfl⟩⟩

/-- A report writes OUTCOME, FAIL_INDEX and CODE, and CODE is 0 after a failure (41_decoder.md R155, R166). -/
theorem reportVerdict_error (f : Failure) (s : State) :
    reportVerdict (.error f) s = writeDecode (outcomeOf f.reason) (BitVec.ofNat 7 f.index) 0#32 s := rfl

theorem reportVerdict_ok (code : Word) (s : State) :
    reportVerdict (.ok code) s = writeDecode .ok 0#7 code s := rfl

/-- DECODE is one write of the three result elements, with values that its configuration and snapshot fix. -/
theorem decodeSnapshot_writes (cfg : Config) (p : List Interval) :
    ∃ o i c, ∀ s : State, s.cfg = cfg → s.snap = p → decodeSnapshot s = writeDecode o i c s := by
  cases hv : decodeFn cfg p with
  | ok code => exact ⟨.ok, 0#7, code, fun s hc hp => by rw [decodeSnapshot, hc, hp, hv, reportVerdict_ok]⟩
  | error f => exact ⟨_, _, _, fun s hc hp => by rw [decodeSnapshot, hc, hp, hv, reportVerdict_error]⟩

/-- A failed DECODE leaves no code (41_decoder.md R155, 10_state.md R44 (e)). -/
theorem decodeSnapshot_code_of_failure {s : State} (h : isFailure (decodeSnapshot s).outcome = true) :
    (decodeSnapshot s).code = 0#32 := by
  unfold decodeSnapshot at h ⊢
  cases hv : decodeFn s.cfg s.snap with
  | ok code => rw [hv, reportVerdict_ok] at h; simp [isFailure] at h
  | error f => rw [reportVerdict_error]; rfl

end Sys2Proof.Machine
end

