-- ==== Sys2Proof/Laws/Encoding.lean ====
section
/-! SUPPORT. Command words, byte lanes and window addresses. -/

namespace Sys2Proof

open Sys2Proof.Machine

/-! ### Command words -/

/-- The four legal words and the illegal ones, as one case split (30_encoding.md R102, R103). -/
theorem decodeCommand_eq (w : Word) : decodeCommand w =
    if w = 0x00000000#32 then .nop else if w = 0x00000001#32 then .take
    else if w = 0x00000002#32 then .decode else if w = 0x00000003#32 then .resolve else .illegal w := by
  have key : ∀ k : Nat, k < 4 → ((commandRsv w = 0#28 ∧ commandOp w = BitVec.ofNat 4 k) ↔ w = BitVec.ofNat 32 k) := by
    intro k hk
    rw [← BitVec.toNat_inj, ← BitVec.toNat_inj, ← BitVec.toNat_inj]
    simp only [commandRsv, commandOp, BitVec.extractLsb'_toNat, BitVec.toNat_ofNat, Nat.shiftRight_eq_div_pow]
    have := w.isLt
    omega
  have k0 := key 0 (by decide)
  have k1 := key 1 (by decide)
  have k2 := key 2 (by decide)
  have k3 := key 3 (by decide)
  unfold decodeCommand
  by_cases hr : commandRsv w = 0#28
  · simp only [hr, true_and, if_true] at *
    simp only [k0, k1, k2, k3]
  · simp only [hr, false_and, false_iff, if_false] at *
    simp [k0, k1, k2, k3]

theorem decodeCommand_illegal {w : Word} (h : w ∉ legalCommandWords) : decodeCommand w = .illegal w := by
  simp only [legalCommandWords, List.mem_cons, List.not_mem_nil, or_false, not_or] at h
  rw [decodeCommand_eq]; simp [h]

/-- A command word never decodes to an edge or a bus access, and performing it changes nothing more. -/
theorem performs_decodeCommand (w : Word) : (decodeCommand w).performs = decodeCommand w := by
  rw [decodeCommand_eq]
  repeat' split
  all_goals rfl

/-- A write that is not a legal write to CMD performs itself (43_host_access.md R211). -/
theorem performs_wr_of_not {off : Offset} {width : Nat} (h : isCommandWrite off width = false) (v : Word) :
    (Instr.wr off width v).performs = .wr off width v := by simp [Instr.performs, h]

/-- A legal write to CMD performs the command of its word (43_host_access.md R212). -/
theorem performs_wr_cmd (v : Word) : (Instr.wr 0x000#11 4 v).performs = decodeCommand v := rfl

theorem isCommandWrite_iff (off : Offset) (width : Nat) :
    isCommandWrite off width = true ↔ width = 4 ∧ off = 0x000#11 := by
  unfold isCommandWrite
  rw [Bool.and_eq_true, decide_eq_true_iff, decide_eq_true_iff]
  rfl

theorem performs_performs (i : Instr) : i.performs.performs = i.performs := by
  cases i with
  | wr off width value =>
    cases h : isCommandWrite off width with
    | true =>
      have hp : (Instr.wr off width value).performs = decodeCommand value := by simp [Instr.performs, h]
      rw [hp, performs_decodeCommand]
    | false => rw [performs_wr_of_not h, performs_wr_of_not h]
  | _ => rfl

/-! ### Byte lanes -/

theorem laneOf_getLsbD (w : Word) (j n : Nat) (hn : n < 8) : (laneOf w j).getLsbD n = w.getLsbD (8 * j + n) := by
  simp [laneOf, hn]

theorem wordOfLanes_lanesOf (w : Word) : wordOfLanes (lanesOf w) = .ok w := by
  simp only [wordOfLanes, lanesOf, Except.ok.injEq]
  apply BitVec.eq_of_toNat_eq
  have := w.isLt
  simp only [laneOf, BitVec.toNat_append, BitVec.extractLsb'_toNat, Nat.shiftRight_eq_div_pow]
  rw [← Nat.shiftLeft_add_eq_or_of_lt (by omega), ← Nat.shiftLeft_add_eq_or_of_lt (by omega),
    ← Nat.shiftLeft_add_eq_or_of_lt (by omega)]
  simp only [Nat.shiftLeft_eq]
  omega

theorem decodeLanes_lanesOf (w : Word) : decodeLanes (lanesOf w) = .ok (decodeCommand w) := by
  simp [decodeLanes, wordOfLanes_lanesOf]

/-! ### Window addresses -/

theorem windowOffset_hostAddress (cfg : Config) (off : Offset) : windowOffset cfg (hostAddress cfg off) = some off := by
  have := off.isLt
  simp [windowOffset, hostAddress, this]

theorem windowOffset_none {cfg : Config} {addr : Nat} (h : addr < cfg.base ∨ cfg.base + 2048 ≤ addr) :
    windowOffset cfg addr = none := by
  simp only [windowOffset, ite_eq_right_iff, reduceCtorEq]
  omega

/-- The stimulus of a command word decodes to the command (30_encoding.md R100, R102). -/
theorem decodeStimulus_commandWrite (cfg : Config) (k : Tick) (w : Word) :
    decodeStimulus cfg k (commandWrite cfg w) = .ok (decodeCommand w) := by
  simp [decodeStimulus, commandWrite, windowOffset_hostAddress, Instr.performs, isCommandWrite]

end Sys2Proof
end

