-- ==== Sys2Proof/Laws/HostAccess.lean ====
section
/-! SUPPORT. What a host access can do: the register map, the checks in their order, and the effect of RD
and WR. -/

namespace Sys2Proof.Machine

/-- The register map by offset (10_state.md R47). -/
theorem regAt_eq (cfg : Config) (off : Offset) : regAt cfg off =
    if off = 0x000#11 then some .cmd else if off = 0x004#11 then some .status
    else if off = 0x008#11 then some .count else if off = 0x00C#11 then some .snapCount
    else if off = 0x010#11 then some .result else if off = 0x014#11 then some .code
    else if off = 0x018#11 then some .key else if off = 0x01C#11 then some .dist
    else if off = 0x020#11 then some .info
    else if 0x400 ≤ off.toNat ∧ (off.toNat - 0x400) / 4 < cfg.nBuf then some (.snap ((off.toNat - 0x400) / 4))
    else none := by
  simp only [regAt, controlRegisters, List.lookup_cons, List.lookup_nil, beq_eq_decide]
  by_cases h0 : off = 0x000#11 <;> by_cases h1 : off = 0x004#11 <;> by_cases h2 : off = 0x008#11 <;>
    by_cases h3 : off = 0x00C#11 <;> by_cases h4 : off = 0x010#11 <;> by_cases h5 : off = 0x014#11 <;>
    by_cases h6 : off = 0x018#11 <;> by_cases h7 : off = 0x01C#11 <;> by_cases h8 : off = 0x020#11 <;>
    simp_all

/-- An aligned offset has a register exactly when it is mapped (10_state.md R57). -/
theorem regAt_isSome_iff (cfg : Config) {off : Offset} (ha : off.toNat % 4 = 0) :
    (regAt cfg off).isSome = true ↔ mapped cfg off.toNat := by
  rw [regAt_eq]
  have ho : ∀ n : Nat, n < 2048 → (off = BitVec.ofNat 11 n ↔ off.toNat = n) := by
    intro n hn
    rw [← BitVec.toNat_inj, BitVec.toNat_ofNat, Nat.mod_eq_of_lt hn]
  simp only [ho 0x000 (by decide), ho 0x004 (by decide), ho 0x008 (by decide), ho 0x00C (by decide),
    ho 0x010 (by decide), ho 0x014 (by decide), ho 0x018 (by decide), ho 0x01C (by decide),
    ho 0x020 (by decide), mapped]
  repeat' split
  all_goals simp only [Option.isSome_some, Option.isSome_none, true_iff, Bool.false_eq_true, false_iff]
  all_goals omega

/-- An access passes every check exactly when it has the right width, is aligned, names a register and
goes in a direction the register allows (43_host_access.md R217). -/
theorem checkAccess_ok_iff (cfg : Config) (dir : Direction) (off : Offset) (width : Nat) (r : Reg) :
    checkAccess cfg dir off width = .ok r ↔
      width = 4 ∧ off.toNat % 4 = 0 ∧ regAt cfg off = some r ∧ r.allows dir = true := by
  unfold checkAccess
  by_cases hw : width = 4
  · by_cases ha : off.toNat % 4 = 0
    · cases hr : regAt cfg off with
      | none => simp [hw, ha]
      | some q =>
        cases hq : q.allows dir <;> simp [hw, ha, hq]
        · rintro rfl; simp [hq]
        · rintro rfl; exact hq
    · simp [hw, ha]
  · simp [hw]

/-- The only registers that allow a write are CMD and CODE (10_state.md R47). -/
theorem allows_write_iff (r : Reg) : r.allows .write = true ↔ r = .cmd ∨ r = .code := by
  cases r <;> simp [Reg.allows]

/-- Every register but CMD allows a read (10_state.md R47). -/
theorem allows_read_iff (r : Reg) : r.allows .read = true ↔ r ≠ .cmd := by
  cases r <;> simp [Reg.allows]

theorem regAt_cmd_iff (cfg : Config) (off : Offset) : regAt cfg off = some .cmd ↔ off = 0x000#11 := by
  rw [regAt_eq]
  repeat' split
  all_goals simp_all

theorem regAt_status_iff (cfg : Config) (off : Offset) : regAt cfg off = some .status ↔ off = 0x004#11 := by
  rw [regAt_eq]
  repeat' split
  all_goals simp_all

theorem regAt_count_iff (cfg : Config) (off : Offset) : regAt cfg off = some .count ↔ off = 0x008#11 := by
  rw [regAt_eq]
  repeat' split
  all_goals simp_all

theorem regAt_code_iff (cfg : Config) (off : Offset) : regAt cfg off = some .code ↔ off = 0x014#11 := by
  rw [regAt_eq]
  repeat' split
  all_goals simp_all

/-- What a read can do: return a register's value, or fault and return 0 (43_host_access.md R210). -/
theorem readAccess_cases (off : Offset) (width : Nat) (s : State) :
    (∃ r, checkAccess s.cfg .read off width = .ok r ∧ readAccess off width s = returnData (regValue s r) s) ∨
    ((∀ r, checkAccess s.cfg .read off width ≠ .ok r) ∧
      readAccess off width s = returnData 0#32 (raiseFault .bus s)) := by
  unfold readAccess
  cases checkAccess s.cfg .read off width with
  | ok r => exact .inl ⟨r, rfl, rfl⟩
  | error e => exact .inr ⟨by simp, rfl⟩

/-- What a write can do: dispatch a command word, write CODE, or fault (43_host_access.md R211). -/
theorem writeAccess_cases (off : Offset) (width : Nat) (v : Word) (s : State) :
    (width = 4 ∧ off = 0x000#11 ∧ writeAccess off width v s = dispatch v s) ∨
    (width = 4 ∧ off = 0x014#11 ∧ writeAccess off width v s = writeCode v s) ∨
    (¬ (width = 4 ∧ (off = 0x000#11 ∨ off = 0x014#11)) ∧ writeAccess off width v s = raiseFault .bus s) := by
  unfold writeAccess
  cases hc : checkAccess s.cfg .write off width with
  | ok r =>
    obtain ⟨hw, _, hr, ha⟩ := (checkAccess_ok_iff ..).1 hc
    rcases (allows_write_iff r).1 ha with rfl | rfl
    · exact .inl ⟨hw, (regAt_cmd_iff ..).1 hr, rfl⟩
    · exact .inr (.inl ⟨hw, (regAt_code_iff ..).1 hr, rfl⟩)
  | error e =>
    refine .inr (.inr ⟨?_, rfl⟩)
    rintro ⟨hw, rfl | rfl⟩
    · have := (checkAccess_ok_iff s.cfg .write 0x000#11 width .cmd).2 ⟨hw, by decide, (regAt_cmd_iff ..).2 rfl, rfl⟩
      simp [this] at hc
    · have := (checkAccess_ok_iff s.cfg .write 0x014#11 width .code).2 ⟨hw, by decide, (regAt_code_iff ..).2 rfl, rfl⟩
      simp [this] at hc

/-- A dispatch is the effect of the command its word selects (43_host_access.md R212). -/
theorem dispatch_eq (v : Word) (s : State) : dispatch v s = effectOf (decodeCommand v) s := by
  rw [decodeCommand_eq, dispatch]
  repeat' split
  all_goals rfl

/-- An operation and the operation it performs have the same effect. -/
theorem effectOf_performs (i : Instr) (s : State) : effectOf i.performs s = effectOf i s := by
  cases i with
  | wr off width v =>
    cases h : isCommandWrite off width with
    | false => rw [performs_wr_of_not h]
    | true =>
      obtain ⟨rfl, rfl⟩ := (isCommandWrite_iff off width).1 h
      rw [performs_wr_cmd, ← dispatch_eq]
      rcases writeAccess_cases 0x000#11 4 v s with ⟨_, _, e⟩ | ⟨_, hoff, _⟩ | ⟨hn, _⟩
      · exact e.symm
      · exact absurd hoff (by decide)
      · exact absurd ⟨rfl, .inl rfl⟩ hn
  | _ => rfl

/-! ### Whether a host write of CODE has followed the last DECODE -/

@[simp] theorem codeWrittenAfter_idle {s : State} (hp : s.arrivals = []) (written : Bool) :
    codeWrittenAfter s written = written := by simp [codeWrittenAfter, hp]

@[simp] theorem codeWrittenAfter_reset {s : State} {a : Arrival} {rest : List Arrival}
    (hp : s.arrivals = a :: rest) (he : a.event = .reset) (written : Bool) :
    codeWrittenAfter s written = false := by simp [codeWrittenAfter, hp, he]

/-- The flag after an operation: a DECODE forgets the write, a legal write of CODE records it, and every
other operation, an edge at whatever time, leaves it. -/
theorem codeWrittenAfter_operation {s : State} {a : Arrival} {rest : List Arrival} {o : Stimulus} {k : Tick}
    {i : Instr} (hp : s.arrivals = a :: rest) (he : a.event = .operation o)
    (hi : decodeStimulus s.cfg k o = .ok i) (written : Bool) :
    codeWrittenAfter s written =
      match i with
      | .decode => false
      | .wr off width _ => written || (decide (width = 4) && decide (off = 0x014#11))
      | _ => written := by
  simp only [codeWrittenAfter, hp, he]
  cases o with
  | edge => simp only [decodeStimulus, Except.ok.injEq] at hi ⊢; subst hi; rfl
  | read addr width =>
    have hk : decodeStimulus s.cfg s.ticks (.read addr width) = .ok i := hi
    rw [hk]
    cases i <;> rfl
  | write addr width v =>
    have hk : decodeStimulus s.cfg s.ticks (.write addr width v) = .ok i := hi
    rw [hk]
    cases i <;> rfl

end Sys2Proof.Machine
end

