-- ==== Sys2Proof/Laws/PerInstr.lean ====
section
/-! SUPPORT. Facts about every operation as syntax, one lemma for each constructor. -/

/-! ### The stimulus of an operation reaches the block -/

/-- Under every configuration the operation's stimulus decodes to some operation: its address lies in the
window (20_memory.md R70), whatever TICKS holds. -/
def Sys2Proof.Laws.EncodeReachesBlock.Statement (i : Sys2Proof.Instr) : Prop :=
  ∀ (cfg : Sys2Proof.Config) (ticks : Sys2Proof.Tick),
    ∃ j, Sys2Proof.decodeStimulus cfg ticks (Sys2Proof.encode cfg i) = .ok j

namespace Sys2Proof.Laws.EncodeReachesBlock

theorem edge (now : Tick) : Statement (.edge now) := fun _ ticks => ⟨.edge ticks, rfl⟩

theorem nop : Statement .nop := fun cfg ticks => ⟨_, decodeStimulus_commandWrite cfg ticks _⟩

theorem take : Statement .take := fun cfg ticks => ⟨_, decodeStimulus_commandWrite cfg ticks _⟩

theorem decode : Statement .decode := fun cfg ticks => ⟨_, decodeStimulus_commandWrite cfg ticks _⟩

theorem resolve : Statement .resolve := fun cfg ticks => ⟨_, decodeStimulus_commandWrite cfg ticks _⟩

theorem illegal (word : Word) : Statement (.illegal word) := fun cfg ticks =>
  ⟨_, decodeStimulus_commandWrite cfg ticks word⟩

theorem rd (off : Offset) (width : Nat) : Statement (.rd off width) := fun cfg ticks => by
  simp [encode, decodeStimulus, windowOffset_hostAddress]

theorem wr (off : Offset) (width : Nat) (value : Word) : Statement (.wr off width value) := fun cfg ticks => by
  simp [encode, decodeStimulus, windowOffset_hostAddress]

end Sys2Proof.Laws.EncodeReachesBlock
end

