-- ==== Sys2Proof/Laws/Resolver.lean ====
section
/-! SUPPORT. What RESOLVE's scan of the key table answers. -/

namespace Sys2Proof.Machine

/-- The resolver's distance is that of the claims (42_resolver.md R192). -/
theorem distance_eq (code : Word) (e : KeyEntry) : distance code e.code = keyDistance code e := rfl

/-- A distance fits the DIST register. -/
theorem keyDistance_lt (code : Word) (e : KeyEntry) : keyDistance code e < 2 ^ 32 := by
  have h1 := code.isLt
  have h2 := e.code.isLt
  simp only [keyDistance]
  omega

/-- The best entry of a scanned prefix: it stands in the prefix, no entry of the prefix is nearer, and
every earlier one is farther. -/
theorem scanTable_spec (code : Word) (pre rest : List KeyEntry) (best : Match) (e : KeyEntry)
    (hb : best.dist = keyDistance code e) (hn : IsNearest pre code best.index e) :
    ∃ e', (scanTable code rest pre.length best).dist = keyDistance code e' ∧
      IsNearest (pre ++ rest) code (scanTable code rest pre.length best).index e' := by
  induction rest generalizing pre best e with
  | nil => exact ⟨e, hb, by simpa [scanTable] using hn⟩
  | cons f rest ih =>
    have hlen : pre.length + 1 = (pre ++ [f]).length := by simp
    have happ : pre ++ f :: rest = (pre ++ [f]) ++ rest := by simp
    have hidx : best.index < pre.length := by
      have := hn.1
      rw [List.getElem?_eq_some_iff] at this
      exact this.1
    unfold scanTable
    rw [happ, hlen]
    split
    · next hlt =>
      refine ih (pre ++ [f]) ⟨pre.length, distance code f.code⟩ f rfl ⟨by simp, fun j g hg => ?_⟩
      have hlt' : keyDistance code f < keyDistance code e := by rw [← hb]; exact hlt
      by_cases hj : j < pre.length
      · rw [List.getElem?_append_left hj] at hg
        have := (hn.2 j g hg).1
        exact ⟨by omega, fun _ => by omega⟩
      · have hj' : j < pre.length + 1 := by
          rw [List.getElem?_eq_some_iff] at hg
          simpa using hg.1
        have : j = pre.length := by omega
        subst this
        simp only [List.getElem?_concat_length, Option.some.injEq] at hg
        subst hg
        exact ⟨le_refl _, fun h => absurd h (by simp)⟩
    · next hge =>
      have hge' : keyDistance code e ≤ keyDistance code f := by
        rw [← hb, ← distance_eq]; omega
      refine ih (pre ++ [f]) best e hb ⟨by rw [List.getElem?_append_left hidx]; exact hn.1, fun j g hg => ?_⟩
      by_cases hj : j < pre.length
      · rw [List.getElem?_append_left hj] at hg
        exact hn.2 j g hg
      · have hj' : j < pre.length + 1 := by
          rw [List.getElem?_eq_some_iff] at hg
          simpa using hg.1
        have : j = pre.length := by omega
        subst this
        simp only [List.getElem?_concat_length, Option.some.injEq] at hg
        subst hg
        exact ⟨hge', fun h => absurd h (by omega)⟩

/-- The scan of a whole table that is not empty. -/
theorem nearestKey_spec {table : List KeyEntry} (h : 1 ≤ table.length) (code : Word) :
    ∃ e, (nearestKey table code).dist = keyDistance code e ∧
      IsNearest table code (nearestKey table code).index e := by
  cases table with
  | nil => simp at h
  | cons e rest =>
    have hn : IsNearest [e] code 0 e := by
      refine ⟨rfl, fun j f hf => ?_⟩
      have hj : j = 0 := by
        rw [List.getElem?_eq_some_iff] at hf
        have := hf.1
        simp at this
        exact this
      subst hj
      simp only [List.getElem?_cons_zero, Option.some.injEq] at hf
      subst hf
      exact ⟨le_refl _, fun h => absurd h (by simp)⟩
    exact scanTable_spec code [e] rest ⟨0, distance code e.code⟩ e rfl hn

/-- The nearest entry's index is within the table. -/
theorem IsNearest.index_lt {table : List KeyEntry} {code : Word} {k : Nat} {e : KeyEntry}
    (h : IsNearest table code k e) : k < table.length := by
  have := h.1
  rw [List.getElem?_eq_some_iff] at this
  exact this.1

/-- There is one nearest entry: the first at the least distance (42_resolver.md R194). -/
theorem IsNearest.index_unique {table : List KeyEntry} {code : Word} {k l : Nat} {e f : KeyEntry}
    (he : IsNearest table code k e) (hf : IsNearest table code l f) : k = l := by
  have h1 := he.2 l f hf.1
  have h2 := hf.2 k e he.1
  rcases Nat.lt_trichotomy k l with h | h | h
  · exact absurd (h2.2 h) (by omega)
  · exact h
  · exact absurd (h1.2 h) (by omega)

end Sys2Proof.Machine
end

