-- ==== Sys2Proof/Tests/Slice0.lean ====
section
/-! SUPPORT. The model's own tests. Expected results are those of spec/95_test_vectors.md (the vector's
name stands in the docstring) or are written out from the encoding tables of spec/30_encoding.md. After
them, for every statement with hypotheses, a concrete state and operands that meet them. -/

namespace Sys2Proof.Tests

open Sys2Proof Sys2Proof.Machine

/-! ### Helpers -/

/-- The next state of an outcome, if it is one. -/
def nextOf : Host.Outcome State Fault Refusal → Option State
  | .next s => some s
  | _ => none

/-- A reset state with a baseline. -/
def withBaseline (t : Tick) : State := { State.reset with prevValid := true, prevTime := t }

/-- A state with a baseline at 10 and a full buffer. -/
def fullBuffer : State := { withBaseline 10#32 with buf := List.replicate 128 100#32 }

/-- A reset state with a snapshot. -/
def withSnap (p : List Interval) : State := { State.reset with snap := p }

/-- F(0x00FF38C7) of spec/95_test_vectors.md. -/
def frameF : List Interval := nominalFrame 0x00FF38C7#32

/-- A reset state whose CODE the host has written. -/
def withCode (v : Word) : State := { State.reset with code := v }

/-- A reset state with both fault bits set. -/
def faultedState : State := { State.reset with faultCmd := true, faultBus := true }

/-- The reference configuration with another window base. -/
def basedConfig : Config := { Config.reference with base := 0x40000800 }

/-- A reset state with one arrival. -/
def arriving (e : Nat) (ev : Event) : State := { State.reset with arrivals := [⟨e, ev⟩] }

/-! ### Well-formedness: each check refuses an ill-formed term -/

/-- With W = 16 a timestamp of 2^16 is refused and 2^16 - 1 is not. -/
theorem test_wf_edge_timestamp :
    Instr.wf { Config.reference with tickBits := 16 } (.edge 0x10000#32) = false
    ∧ Instr.wf { Config.reference with tickBits := 16 } (.edge 0xFFFF#32) = true := by decide

/-- The legal words are no ILLEGAL operations, the word 4 is one. -/
theorem test_wf_illegal_word :
    Instr.wf Config.reference (.illegal 0x00000000#32) = false ∧ Instr.wf Config.reference (.illegal 0x00000003#32) = false
    ∧ Instr.wf Config.reference (.illegal 0x00000004#32) = true := by decide

/-- Every constraint of 00_scope.md R8 refuses a configuration that breaks it alone. -/
theorem test_config_constraints :
    (∀ c ∈ [{ Config.reference with tickBits := 7, maxGap := 64, tol := 1, hdrMark := 1, hdrSpace := 1, bitMark := 1, oneSpace := 1, zeroSpace := 1 },
      { Config.reference with tickBits := 33 },
      { Config.reference with maxGap := 0, tol := 0, hdrMark := 0, hdrSpace := 0, bitMark := 0, oneSpace := 0, zeroSpace := 0 },
      { Config.reference with maxGap := 2 ^ 32 + 1 },
      { Config.reference with hdrMark := 99001 }, { Config.reference with hdrSpace := 99001 },
      { Config.reference with bitMark := 99001 }, { Config.reference with oneSpace := 99001 },
      { Config.reference with zeroSpace := 99001 }, { Config.reference with minPulses := 67 },
      { Config.reference with nBuf := 67 }, { Config.reference with nBuf := 257 },
      { Config.reference with keyTable := [] }, { Config.reference with spacePriority := .zeroFirst },
      { Config.reference with trailerIndex := 67 }, { Config.reference with base := 4 }], Config.wf c = false)
    ∧ Config.reference.wf = true ∧ basedConfig.wf = true
    ∧ Config.wf { Config.reference with hdrMark := 99000 } = true := by decide

/-- A table of more than 65535 entries is too long. -/
theorem test_config_table_too_long (table : List KeyEntry) (h : table.length = 65536) :
    ¬ Config.wf { Config.reference with keyTable := table } = true := by
  intro hw
  have := (wf_keyTable hw).2
  simp only [h] at this
  omega

/-! ### Decoding: every constructor by a word or an access written out from the encoding -/

/-- The words of 30_encoding.md R102, as the host's table numbers them. -/
theorem test_decode_commands :
    decodeTableWord 32 0 = some .nop ∧ decodeTableWord 32 1 = some .take
    ∧ decodeTableWord 32 2 = some .decode ∧ decodeTableWord 32 3 = some .resolve := by decide

/-- OP 4 and 15 with RSV = 0, OP 1 with RSV = 1, and OP 0 with bit 31 set (R103). -/
theorem test_decode_illegal :
    decodeCommand 0b00000000000000000000000000000100#32 = .illegal 0x00000004#32
    ∧ decodeCommand 0b00000000000000000000000000001111#32 = .illegal 0x0000000F#32
    ∧ decodeCommand 0b00000000000000000000000000010001#32 = .illegal 0x00000011#32
    ∧ decodeCommand 0b10000000000000000000000000000000#32 = .illegal 0x80000000#32 := by decide

/-- A command is four bytes, the lowest lane first (R109, 20_memory.md R74). -/
theorem test_decode_lanes :
    wordOfLanes [0xC7#8, 0x38#8, 0xFF#8, 0x00#8] = .ok 0x00FF38C7#32
    ∧ decodeLanes [0x01#8, 0x00#8] = .error (.notFourBytes 2) := by decide

/-- `lw i, INFO`, `sw 0x00FF38C6, CODE`, `sw 0x00000002, CMD`, `sh 0x0001, CMD` and an edge at T = 9,
with BASE = 0x40000800; the byte after the window is not the block's. -/
theorem test_decode_stimuli :
    decodeStimulus basedConfig 9#32 (.read 0x40000820 4) = .ok (.rd 0x020#11 4)
    ∧ decodeStimulus basedConfig 9#32 (.write 0x40000814 4 0x00FF38C6#32) = .ok (.wr 0x014#11 4 0x00FF38C6#32)
    ∧ decodeStimulus basedConfig 9#32 (.write 0x40000800 4 0x00000002#32) = .ok .decode
    ∧ decodeStimulus basedConfig 9#32 (.write 0x40000800 2 0x00000001#32) = .ok (.wr 0x000#11 2 0x00000001#32)
    ∧ decodeStimulus basedConfig 9#32 .edge = .ok (.edge 9#32)
    ∧ decodeStimulus basedConfig 9#32 (.read 0x40001000 4) = .error (.outsideWindow 0x40001000) := by decide

/-! ### EDGE -/

/-- V-EDGE-6 and V-EDGE-7: the wrapped interval 9000 is appended, the wrapped idle gap is not. -/
theorem test_edge_wraps :
    (nextOf (exec (.edge 3704#32) (withBaseline 4294962000#32))).map (·.buf) = some [9000#32]
    ∧ (nextOf (exec (.edge 142704#32) (withBaseline 4294800000#32))).map (fun s => (s.buf, s.prevTime))
      = some ([], 142704#32) := by decide

/-- V-EDGE-8 and V-EDGE-10: a full buffer sets OVF and moves the baseline; an idle gap sets nothing. -/
theorem test_edge_full :
    (nextOf (exec (.edge 110#32) fullBuffer)).map (fun s => (s.cnt, s.ovf, s.prevTime)) = some (128, true, 110#32)
    ∧ (nextOf (exec (.edge 200010#32) fullBuffer)).map (fun s => (s.cnt, s.ovf)) = some (128, false) := by decide +kernel

/-! ### TAKE -/

/-- V-TAKE-1. -/
theorem test_take_exchanges :
    (nextOf (exec .take { withBaseline 14500#32 with buf := [9000#32, 4500#32] })).map
      (fun s => (s.snap, s.buf, s.prevValid, s.prevTime)) = some ([9000#32, 4500#32], [], false, 14500#32) := by decide

/-- V-TAKE-3. -/
theorem test_take_overflow :
    (nextOf (exec .take { fullBuffer with ovf := true })).map (fun s => (s.snapCount, s.snapOvf, s.ovf))
      = some (128, true, false) := by decide +kernel

/-! ### MATCH and DECODE -/

/-- V-MATCH-1 to V-MATCH-7. -/
theorem test_match_vectors :
    matchNominal Config.reference 0#32 560 = true ∧ matchNominal Config.reference 1559#32 560 = true
    ∧ matchNominal Config.reference 1560#32 560 = false ∧ matchNominal Config.reference 600#32 1600 = false
    ∧ matchNominal Config.reference 1000#32 1600 = true
    ∧ matchNominal { Config.reference with tol := 0 } 560#32 560 = false
    ∧ matchNominal { Config.reference with tol := 1 } 9000#32 9000 = true := by decide

/-- V-DEC-1, V-DEC-7 (a zero space read as 1) and V-DEC-8 (a one space read as 0). -/
theorem test_decode_codes :
    (nextOf (exec .decode (withSnap frameF))).map (fun s => (s.outcome, s.code)) = some (.ok, 0x00FF38C7#32)
    ∧ (nextOf (exec .decode (withSnap (frameF.set 3 1561#32)))).map (·.code) = some 0x80FF38C7#32
    ∧ (nextOf (exec .decode (withSnap (frameF.set 19 599#32)))).map (·.code) = some 0x007F38C7#32 := by
  decide +kernel

/-- V-DEC-2, V-DEC-4, V-DEC-10, V-DEC-11 and V-DEC-14: the RESULT register. -/
theorem test_decode_failures :
    (nextOf (exec .decode (withSnap (frameF.take 67)))).map resultWord = some 0x00000002#32
    ∧ (nextOf (exec .decode (withSnap (frameF.set 0 8000#32)))).map resultWord = some 0x00000003#32
    ∧ (nextOf (exec .decode (withSnap (frameF.set 65 2600#32)))).map resultWord = some 0x00004105#32
    ∧ (nextOf (exec .decode (withSnap (frameF.set 66 1560#32)))).map resultWord = some 0x00000006#32
    ∧ (nextOf (exec .decode (withSnap ((frameF.set 10 2000#32).set 40 5000#32)))).map resultWord = some 0x00000A04#32 := by
  decide

/-! ### RESOLVE -/

/-- V-RES-2 and V-RES-3: the earlier entry keeps a tie. -/
theorem test_resolve_ties :
    (nextOf (exec .resolve (withCode 0x00FF38C6#32))).map (fun s => (s.key, s.dist)) = some (1#16, 1#32)
    ∧ (nextOf (exec .resolve (withCode 0x00FF38C8#32))).map (fun s => (s.key, s.dist)) = some (1#16, 1#32) := by decide

/-- V-RES-8, V-RES-9 and V-RES-10: large distances do not wrap. -/
theorem test_resolve_far :
    (nextOf (exec .resolve (withCode 0x807F9C64#32))).map (fun s => (s.key, s.dist)) = some (2#16, 0x7F80639B#32)
    ∧ (nextOf (exec .resolve (withCode 0x807F9C65#32))).map (fun s => (s.key, s.dist)) = some (4#16, 0x7F80639A#32)
    ∧ (nextOf (exec .resolve (withCode 0x80000000#32))).map (fun s => (s.key, s.dist)) = some (2#16, 0x7F00C737#32) := by
  decide

/-! ### NOP, ILLEGAL, RD, WR -/

/-- V-HOST-12. -/
theorem test_nop : nextOf (exec .nop fullBuffer) = some fullBuffer := by decide

/-- V-HOST-10 and V-HOST-11: FAULT_CMD is set and no TAKE is performed. -/
theorem test_illegal_command :
    (nextOf (exec (.wr 0x000#11 4 0x00000004#32) fullBuffer)).map (fun s => (s.faultCmd, s.faultBus, s.cnt)) = some (true, false, 128)
    ∧ (nextOf (exec (.illegal 0x00000011#32) fullBuffer)).map (fun s => (s.faultCmd, s.faultBus, s.cnt)) = some (true, false, 128) := by
  decide +kernel

/-- V-HOST-2 (INFO), V-HOST-9 (SNAP beyond SNAP_COUNT) and V-HOST-14 (STATUS). -/
theorem test_read_values :
    (nextOf (exec (.rd 0x020#11 4) State.reset)).map (·.rdData) = some 0x00050080#32
    ∧ (nextOf (exec (.rd 0x408#11 4) (withSnap [9000#32, 4500#32]))).map (fun s => (s.rdData, s.faultBus)) = some (0#32, false)
    ∧ (nextOf (exec (.rd 0x004#11 4) faultedState)).map (·.rdData) = some 0x00000300#32 := by decide

/-- V-HOST-3, V-HOST-5, V-HOST-7 and V-HOST-8: reads that fault and return 0. -/
theorem test_read_faults :
    ∀ off ∈ [0x000#11, 0x006#11, 0x100#11, 0x600#11],
      (nextOf (exec (.rd off 4) { withCode 7#32 with rdData := 5#32 })).map (fun s => (s.rdData, s.faultBus)) = some (0#32, true) := by
  decide

/-- V-HOST-13: CODE is written whole. -/
theorem test_write_code :
    (nextOf (exec (.wr 0x014#11 4 0x00FF38C6#32) State.reset)).map (·.code) = some 0x00FF38C6#32 := by decide

/-- V-HOST-4 and V-HOST-6: a write of STATUS and a 16-bit write of CMD are bus faults, and no TAKE. -/
theorem test_write_faults :
    (nextOf (exec (.wr 0x004#11 4 0x00000001#32) fullBuffer)).map (fun s => (s.faultBus, s.faultCmd, s.cnt)) = some (true, false, 128)
    ∧ (nextOf (exec (.wr 0x000#11 2 0x00000001#32) fullBuffer)).map (fun s => (s.faultBus, s.faultCmd, s.cnt)) = some (true, false, 128) := by
  decide +kernel

/-! ### One step -/

/-- A step counts the microseconds, samples TICKS at the edge and takes the arrival from the list. -/
theorem test_step_edge :
    (nextOf (step { arriving 560 (.operation .edge) with ticks := 100#32, prevValid := true, prevTime := 100#32 })).map
      (fun s => (s.buf, s.ticks, s.arrivals)) = some ([560#32], 660#32, []) := by decide

/-- The command word the host writes first runs as the first operation after reset. -/
theorem test_step_fetch_word :
    (nextOf (step (State.reset.withFetchWord 32 2))).map (fun s => (s.outcome, s.arrivals))
      = some (.insufficientPulses, []) := by decide

/-! ### Witnesses: hypotheses that are met

The statements whose only hypothesis is a legal configuration (`s.cfg.wf = true`) are met by every state
of `witness_legal_configuration`, clause by clause: WindowAfterReset, EdgeEffect, EdgeAlwaysMovesBaseline,
EdgeEnabledInEveryState, TakeEffect, EdgeAndTakeSerialise, DecodeReadsSnapshotAlone,
ResolveFindsFirstNearest, NopChangesNothing, EveryOperationCompletes. The two cases of FrameOrFirstFailure
are those of `witness_DecodeSucceedsExactlyOnFrames` and of the `firstFailure_` theorems. -/

/-- The number that EdgeEffect and its like call `delta`. -/
def deltaOf (s : State) (now : Tick) : Nat :=
  (((now.toNat : Int) - (s.prevTime.toNat : Int)) % (2 ^ s.cfg.tickBits : Int)).toNat

theorem witness_legal_configuration :
    Config.reference.wf = true ∧ State.reset.cfg.wf = true ∧ fullBuffer.cfg.wf = true
    ∧ faultedState.cfg.wf = true ∧ (withSnap frameF).cfg.wf = true ∧ (withCode 1#32).cfg.wf = true := by decide

/-- The four ends of EdgeEffect at their boundaries: no baseline; an interval of exactly MAX_GAP; one of
MAX_GAP - 1 with the buffer full; one of MAX_GAP - 1 with one place left. -/
theorem witness_EdgeEffect :
    State.reset.prevValid = false
    ∧ (withBaseline 10#32).prevValid = true ∧ deltaOf (withBaseline 10#32) 100010#32 = (withBaseline 10#32).cfg.maxGap
    ∧ deltaOf fullBuffer 100009#32 + 1 = fullBuffer.cfg.maxGap ∧ fullBuffer.buf.length = fullBuffer.cfg.nBuf
    ∧ deltaOf { fullBuffer with buf := List.replicate 127 1#32 } 100009#32 + 1 = fullBuffer.cfg.maxGap
    ∧ (List.replicate 127 (1#32 : Interval)).length + 1 = fullBuffer.cfg.nBuf := by decide +kernel

theorem witness_EdgeAlwaysMovesBaseline :
    (withBaseline 10#32).cfg.wf = true ∧ (withBaseline 10#32).cfg.maxGap ≤ deltaOf (withBaseline 10#32) 100010#32 := by decide

theorem witness_ResetGivesEveryElementItsResetValue :
    (arriving 7 .reset).cfg.wf = true ∧ (arriving 7 .reset).arrivals = ⟨7, .reset⟩ :: [] := ⟨by decide, rfl⟩

/-- A state that the reset input leaves with an edge still to come, after a read that returned 9. -/
def resetInRun : State := { arriving 5 (.operation .edge) with rdData := 9#32 }

/-- Both ways to a fresh baseline: reset, and a TAKE. -/
theorem witness_FirstEdgeAppendsNothing :
    resetInRun.cfg.wf = true
    ∧ (∃ k arrivals lastRead,
      resetInRun = { State.resetWith resetInRun.cfg k with arrivals := arrivals, rdData := lastRead })
    ∧ (exchangeBuffer fullBuffer).cfg.wf = true ∧ ∃ r, exec .take r = .next (exchangeBuffer fullBuffer) :=
  ⟨by decide, ⟨0#32, [⟨5, .operation .edge⟩], 9#32, rfl⟩, by decide, fullBuffer, exec_of_wf .take (by decide)⟩

/-- An interval of one period and 560 microseconds, and an idle one of exactly MAX_GAP. -/
theorem witness_EdgeMeasuresElapsedMicroseconds :
    (∀ e ∈ [2 ^ 32 + 560, 100000],
      let s := { arriving e (.operation .edge) with prevValid := true }
      s.cfg.wf = true ∧ s.ticks.toNat < 2 ^ s.cfg.tickBits ∧ s.prevValid = true ∧ s.prevTime = s.ticks
        ∧ s.buf.length < s.cfg.nBuf ∧ s.arrivals = ⟨e, .operation .edge⟩ :: []) := by decide

theorem witness_OverflowIsReported :
    fullBuffer.cfg.wf = true ∧ fullBuffer.prevValid = true ∧ fullBuffer.buf.length = fullBuffer.cfg.nBuf
    ∧ deltaOf fullBuffer 100009#32 < fullBuffer.cfg.maxGap := by decide +kernel

theorem witness_OverlappingSpacesReadAsOne :
    Config.reference.wf = true ∧ matchNominal Config.reference 601#32 Config.reference.oneSpace = true
    ∧ (601#32 : Interval).toNat = 601 ∧ (1559#32 : Interval).toNat = 1559 ∧ (600#32 : Interval).toNat ≤ 600
    ∧ (2599#32 : Interval).toNat ≤ 2599 ∧ 2600 ≤ (2600#32 : Interval).toNat := by decide

/-- The frame F carries its code. -/
theorem frameF_carries : CarriesCode Config.reference frameF 0x00FF38C7#32 := by
  refine ⟨?_, ?_, ?_, ?_, ?_, ?_⟩
  · decide
  · unfold headerOk inWindow; decide
  · unfold markOk inWindow; decide
  · unfold spaceOk inWindow; decide
  · unfold stopOk inWindow; decide
  · unfold inWindow; decide

/-- A frame for the first clause of DecodeSucceedsExactlyOnFrames, and a snapshot that is none for the second. -/
theorem witness_DecodeSucceedsExactlyOnFrames :
    (withSnap frameF).cfg.wf = true ∧ CarriesCode (withSnap frameF).cfg (withSnap frameF).snap 0x00FF38C7#32
    ∧ State.reset.cfg.wf = true ∧ ¬ ∃ c, CarriesCode State.reset.cfg State.reset.snap c :=
  ⟨by decide, frameF_carries, by decide, fun ⟨_, h⟩ => absurd h.enough (by decide)⟩

theorem firstFailure_length : FirstFailure Config.reference (frameF.take 67) .insufficientPulses 0 :=
  .length (by decide)

theorem firstFailure_header : FirstFailure Config.reference (frameF.set 0 8000#32) .invalidHeader 0 :=
  .header (by decide) (by unfold headerOk inWindow; decide)

theorem firstFailure_first_mark : FirstFailure Config.reference (frameF.set 2 1560#32) .bitMarkMismatch (2 + 2 * 0) :=
  .mark 0 (by decide) (by unfold headerOk inWindow; decide) (by decide) (fun _ h => absurd h (by omega))
    (by unfold markOk inWindow; decide)

theorem firstFailure_last_mark : FirstFailure Config.reference (frameF.set 64 1560#32) .bitMarkMismatch (2 + 2 * 31) :=
  .mark 31 (by decide) (by unfold headerOk inWindow; decide) (by decide)
    (by unfold markOk spaceOk inWindow; decide) (by unfold markOk inWindow; decide)

theorem firstFailure_first_space : FirstFailure Config.reference (frameF.set 3 2600#32) .bitSpaceMismatch (3 + 2 * 0) :=
  .space 0 (by decide) (by unfold headerOk inWindow; decide) (by decide) (fun _ h => absurd h (by omega))
    (by unfold markOk inWindow; decide) (by unfold spaceOk inWindow; decide)

theorem firstFailure_last_space : FirstFailure Config.reference (frameF.set 65 2600#32) .bitSpaceMismatch (3 + 2 * 31) :=
  .space 31 (by decide) (by unfold headerOk inWindow; decide) (by decide)
    (by unfold markOk spaceOk inWindow; decide) (by unfold markOk inWindow; decide)
    (by unfold spaceOk inWindow; decide)

theorem firstFailure_trailer : FirstFailure Config.reference (frameF.set 66 1560#32) .invalidTrailer 0 :=
  .trailer (by decide) (by unfold headerOk inWindow; decide)
    (by unfold markOk spaceOk inWindow; decide) (by unfold stopOk inWindow; decide)

/-- Every failing check, the loop's at its first and last pair (see the `firstFailure_` theorems). -/
theorem witness_DecodeReportsFirstFailure :
    (withSnap (frameF.set 66 1560#32)).cfg.wf = true
    ∧ FirstFailure (withSnap (frameF.set 66 1560#32)).cfg (withSnap (frameF.set 66 1560#32)).snap .invalidTrailer 0 :=
  ⟨by decide, firstFailure_trailer⟩

theorem witness_ShortSnapshotIsInsufficient :
    (withSnap (frameF.take 67)).cfg.wf = true ∧ (withSnap (frameF.take 67)).snap.length < 68
    ∧ Config.wf { Config.reference with minPulses := 69 } = true ∧ frameF.length < 69 := by decide

/-- V-DEC-12: two snapshots that differ at index 67. -/
theorem witness_DecodeIgnoresBeyondTrailer :
    State.reset.cfg.wf = true ∧ State.reset.cfg.minPulses ≤ frameF.length
    ∧ State.reset.cfg.minPulses ≤ (frameF.set 67 99999#32).length
    ∧ frameF.take 67 = (frameF.set 67 99999#32).take 67 ∧ frameF ≠ frameF.set 67 99999#32 := by decide

theorem witness_DecodeReadsSnapshotAlone :
    (withSnap frameF).cfg.wf = true ∧ { fullBuffer with snap := frameF }.cfg = (withSnap frameF).cfg
    ∧ { fullBuffer with snap := frameF }.snap = (withSnap frameF).snap := ⟨by decide, rfl, rfl⟩

/-- V-DEC-15: the frame with a repeat frame's intervals after it. -/
theorem witness_NominalFrameDecodesToItsCode :
    let s := withSnap (frameF ++ [40000#32, 9000#32, 2250#32, 560#32, 50000#32])
    s.cfg = { Config.reference with keyTable := Config.exampleTable, base := 0 } ∧ s.cfg.wf = true
    ∧ s.snap = nominalFrame 0x00FF38C7#32 ++ [40000#32, 9000#32, 2250#32, 560#32, 50000#32] :=
  ⟨rfl, by decide, rfl⟩

theorem witness_OkScenarioHolds :
    let s := withCode 0x00FF38C6#32
    s.cfg.wf = true
    ∧ s.cfg.keyTable = [⟨"K0", 0#32⟩] ++ ⟨"OK", 0x00FF38C7#32⟩ ::
      [⟨"K2", 0x00FF38C9#32⟩, ⟨"K3", 0x00FF38C5#32⟩, ⟨"K4", 0xFFFFFFFF#32⟩]
    ∧ (∀ e ∈ [(⟨"K0", 0#32⟩ : KeyEntry)], e.code ≠ 0x00FF38C5#32 ∧ e.code ≠ 0x00FF38C7#32)
    ∧ (∀ e ∈ s.cfg.keyTable, e.code ≠ 0x00FF38C6#32)
    ∧ s.code = 0x00FF38C6#32 ∧ (withCode 0x00FF38C7#32).code = 0x00FF38C7#32 := by decide

theorem witness_ScopeConditionGivesOkScenario :
    (withCode 0x00FF38C6#32).cfg.wf = true ∧ (withCode 0x00FF38C6#32).cfg.meetsR10
    ∧ (withCode 0x00FF38C6#32).code = 0x00FF38C6#32 :=
  ⟨by decide, ⟨[⟨"K0", 0#32⟩], [⟨"K2", 0x00FF38C9#32⟩, ⟨"K3", 0x00FF38C5#32⟩, ⟨"K4", 0xFFFFFFFF#32⟩], rfl,
    by decide, by decide⟩, rfl⟩

theorem witness_ResolveAfterFailedDecode :
    (withSnap (frameF.take 67)).cfg.wf = true
    ∧ FirstFailure (withSnap (frameF.take 67)).cfg (withSnap (frameF.take 67)).snap .insufficientPulses 0 :=
  ⟨by decide, firstFailure_length⟩

/-- Faulting reads: a half word of STATUS, offset 6, the unmapped offsets next to each mapped range, CMD.
Legal reads: the last control register and the first and last words of SNAP. -/
theorem witness_ReadEffect :
    (withSnap frameF).cfg.wf = true ∧ (withSnap frameF).buf.length ≤ (withSnap frameF).cfg.nBuf
    ∧ (withSnap frameF).snap.length ≤ (withSnap frameF).cfg.nBuf
    ∧ (2 : Nat) ≠ 4 ∧ (0x006#11 : Offset).toNat % 4 ≠ 0
    ∧ (∀ off ∈ [0x024#11, 0x3FC#11, 0x600#11, 0x7FC#11], ¬ mapped Config.reference off.toNat)
    ∧ (∀ off ∈ [0x004#11, 0x020#11, 0x400#11, 0x5FC#11],
      off.toNat % 4 = 0 ∧ mapped Config.reference off.toNat ∧ off ≠ 0x000#11) := by
  refine ⟨by decide, by decide, by decide, by decide, by decide, ?_, ?_⟩ <;>
    simp [mapped, Config.reference]

/-- The last captured word, the first beyond it, the last word of the window and the first after it. -/
theorem witness_SnapWindowRead :
    (withSnap frameF).cfg.wf = true ∧ (withSnap frameF).snap.length ≤ (withSnap frameF).cfg.nBuf
    ∧ (withSnap frameF).snap[67]? = some 560#32
    ∧ (withSnap frameF).snap.length ≤ 68 ∧ 127 < (withSnap frameF).cfg.nBuf
    ∧ (withSnap frameF).cfg.nBuf ≤ 128 ∧ 255 < 256 := by decide

theorem witness_LegalReadsAreIdempotent :
    State.reset.cfg.wf = true ∧ (0x5FC#11 : Offset).toNat % 4 = 0 ∧ mapped State.reset.cfg (0x5FC#11 : Offset).toNat
    ∧ (0x5FC#11 : Offset) ≠ 0x000#11 := by
  unfold mapped; decide

/-- Faulting writes: a half word of CMD, offset 2, an unmapped offset, the read-only registers next to CMD
and CODE. Legal writes: CODE and CMD. -/
theorem witness_WriteEffect :
    State.reset.cfg.wf = true ∧ (2 : Nat) ≠ 4 ∧ (0x002#11 : Offset).toNat % 4 ≠ 0
    ∧ ¬ mapped State.reset.cfg (0x024#11 : Offset).toNat
    ∧ (∀ off ∈ [(0x004#11 : Offset), 0x010#11, 0x018#11], off ≠ 0x000#11 ∧ off ≠ 0x014#11) := by
  refine ⟨by decide, by decide, by decide, ?_, ?_⟩
  · simp [mapped, State.reset, Config.reference]
  · simp

/-- Illegal words next to the legal ones, and legal opcodes with a reserved bit set. -/
theorem witness_IllegalCommandSetsFaultOnly :
    State.reset.cfg.wf = true
    ∧ 0x00000004#32 ∉ [0x00000000#32, 0x00000001#32, 0x00000002#32, 0x00000003#32]
    ∧ 0x00000011#32 ∉ [0x00000000#32, 0x00000001#32, 0x00000002#32, 0x00000003#32]
    ∧ 0xFFFFFFFF#32 ∉ [0x00000000#32, 0x00000001#32, 0x00000002#32, 0x00000003#32] := by simp; decide

/-- The hypotheses of CommandWriteDispatches and of the first clause of LegalCommandWordsAreExactlyFour. -/
theorem witness_CommandWriteDispatches :
    faultedState.cfg.wf = true ∧ 0x00000004#32 ∉ [0x00000000#32, 0x00000001#32, 0x00000002#32, 0x00000003#32] := by decide

/-- Every operation has a next state at reset; one write of an illegal word for each check (a half word at
CMD, offset 2, the first unmapped offset, a read-only register), a read of CMD, and an illegal command. -/
theorem witness_AtMostOneFaultPerOperation :
    (∀ i, ∃ t, exec i State.reset = .next t)
    ∧ (2 : Nat) ≠ 4 ∧ (0x002#11 : Offset).toNat % 4 ≠ 0 ∧ ¬ mapped State.reset.cfg (0x024#11 : Offset).toNat
    ∧ ((0x004#11 : Offset) ≠ 0x000#11 ∧ (0x004#11 : Offset) ≠ 0x014#11)
    ∧ (∃ t, exec (.rd 0x000#11 4) State.reset = .next t ∧ t.faultBus = true)
    ∧ ∃ t, exec (.illegal 4#32) State.reset = .next t ∧ t.faultCmd ≠ State.reset.faultCmd := by
  refine ⟨fun i => ⟨_, exec_of_wf i (by decide)⟩, by decide, by decide, ?_, by decide,
    ⟨_, exec_of_wf _ (by decide), rfl⟩, ⟨_, exec_of_wf _ (by decide), by decide⟩⟩
  simp [mapped, State.reset, Config.reference]

/-- A step from a state with both fault bits set to one with neither. -/
theorem witness_OnlyResetClearsFaults :
    let s : State := { faultedState with arrivals := [⟨0, .reset⟩] }
    ∃ t, step s = .next t ∧ (s.faultCmd = true ∧ t.faultCmd = false) ∧ (s.faultBus = true ∧ t.faultBus = false)
      ∧ s.cfg.wf = true ∧ s.arrivals = ⟨0, .reset⟩ :: [] :=
  ⟨assertReset (takeArrival 0 [] { faultedState with arrivals := [⟨0, .reset⟩] }),
    step_arrival (s := { faultedState with arrivals := [⟨0, .reset⟩] }) (by decide) rfl, ⟨rfl, rfl⟩, ⟨rfl, rfl⟩,
    by decide, rfl⟩

theorem witness_FaultsDoNotChangeBehaviour :
    Instr.take ≠ .rd 0x004#11 4 ∧ exec .take faultedState = .next (exchangeBuffer faultedState) :=
  ⟨by decide, exec_of_wf .take (by decide)⟩

/-- An operation for the first clause of WritersOfEachElement and of ParametersNeverChange and
TicksAdvanceWithTimeAlone, and an arrival for the others. -/
theorem witness_WritersOfEachElement :
    exec .take fullBuffer = .next (exchangeBuffer fullBuffer)
    ∧ (arriving 7 .reset).cfg.wf = true ∧ (arriving 7 .reset).arrivals = ⟨7, .reset⟩ :: [] :=
  ⟨exec_of_wf .take (by decide), by decide, rfl⟩

theorem witness_ParametersNeverChange :
    exec .take fullBuffer = .next (exchangeBuffer fullBuffer)
    ∧ step (arriving 7 .reset) = .next (assertReset (takeArrival 7 [] (arriving 7 .reset))) :=
  ⟨exec_of_wf .take (by decide), step_arrival (s := arriving 7 .reset) (by decide) rfl⟩

theorem witness_TicksAdvanceWithTimeAlone :
    (arriving 7 .reset).arrivals = ⟨7, .reset⟩ :: []
    ∧ step (arriving 7 .reset) = .next (assertReset (takeArrival 7 [] (arriving 7 .reset)))
    ∧ Config.wf { Config.reference with tickBits := 17 } = true :=
  ⟨rfl, step_arrival (s := arriving 7 .reset) (by decide) rfl, by decide⟩

theorem witness_IllFormedConfigurationIsRefused :
    (State.resetWith { Config.reference with minPulses := 67 } 0#32).cfg.wf = false := by decide

/-- A host operation of every kind that is meant: the other commands, each also as a write to CMD, a legal
and an illegal write, and reads of the registers next to STATUS and COUNT, of SNAP and of a half word of STATUS. -/
theorem witness_EdgeCommutesWithHostOperations :
    (withSnap frameF).cfg.wf = true
    ∧ ∀ i ∈ [Instr.nop, .decode, .resolve, .illegal 0x00000011#32, .wr 0x000#11 4 0x00000002#32,
        .wr 0x000#11 4 0x00000003#32, .wr 0x000#11 2 0x00000001#32, .wr 0x014#11 4 7#32, .wr 0x004#11 4 7#32,
        .rd 0x000#11 4, .rd 0x00C#11 4, .rd 0x014#11 4, .rd 0x400#11 4, .rd 0x004#11 2],
      (∀ k, i ≠ .edge k) ∧ i.performs ≠ .take ∧ i ≠ .rd 0x004#11 4 ∧ i ≠ .rd 0x008#11 4 := by
  refine ⟨by decide, ?_⟩
  simp only [List.forall_mem_cons]
  refine ⟨?_, ?_, ?_, ?_, ?_, ?_, ?_, ?_, ?_, ?_, ?_, ?_, ?_, ?_, by simp⟩ <;>
    exact ⟨by simp, by decide, by decide, by decide⟩

/-- A reset state to which a host write of CODE is to arrive. -/
def codeWriteComes : State :=
  { State.resetWith Config.reference 3#32 with arrivals := [⟨5, .operation (.write 0x014 4 9#32)⟩] }

/-- A reachable state after a step, in which a host write of CODE has followed the last DECODE. -/
theorem witness_InvariantsHoldInEveryReachableState :
    Config.reference.wf = true ∧ Reachable Config.reference (writeCode 9#32 (takeArrival 5 [] codeWriteComes)) true := by
  have h0 : Reachable Config.reference codeWriteComes false := .reset 3#32 _ (by decide)
  have hs : step codeWriteComes = .next (writeCode 9#32 (takeArrival 5 [] codeWriteComes)) := by
    rw [step_arrival (s := codeWriteComes) (by decide) rfl]; rfl
  exact ⟨by decide, Reachable.step h0 hs⟩

/-- A state after a DECODE that failed at the last space, with an edge to come. -/
def lastSpaceFailed : State :=
  { withSnap frameF with
    arrivals := [⟨3, .operation .edge⟩], failIndex := 65#7, outcome := .bitSpaceMismatch, key := 4#16 }

theorem frameF_below_gap : frameF.all (fun v => decide (v.toNat < 100000)) = true := by decide +kernel

/-- A state that is not the reset state, with the invariant. -/
theorem lastSpaceFailed_inv : lastSpaceFailed.Inv where
  configLegal := by decide
  bufBelowGap := by intro v hv; cases hv
  snapBelowGap := fun v hv => of_decide_eq_true (List.all_eq_true.1 frameF_below_gap v hv)
  cntBounded := by decide
  snapCountBounded := by decide +kernel
  keyInTable := by decide
  failIndexOk := ⟨by decide, by decide, by decide⟩
  prevTimeInRange := by decide
  ticksInRange := by decide

/-- No host write of CODE has followed its failed DECODE, its CODE is 0, and the edge to come leaves that so. -/
theorem witness_StepKeepsInvariant :
    lastSpaceFailed.Inv ∧ (false = false → isFailure lastSpaceFailed.outcome = true → lastSpaceFailed.code = 0#32)
    ∧ isFailure lastSpaceFailed.outcome = true ∧ codeWrittenAfter lastSpaceFailed false = false
    ∧ ∃ t, step lastSpaceFailed = .next t ∧ isFailure t.outcome = true :=
  ⟨lastSpaceFailed_inv, fun _ _ => rfl, rfl, rfl,
    _, (step_arrival (s := lastSpaceFailed) (by decide) rfl).trans
      (exec_of_wf (.edge (ticksAfter lastSpaceFailed.cfg lastSpaceFailed.ticks 3)) (s := takeArrival 3 [] lastSpaceFailed)
        (by decide)), by decide⟩

theorem witness_ResetSatisfiesInvariant :
    Config.wf { Config.reference with tickBits := 17 } = true ∧ (0x1FFFF#32 : Tick).toNat < 2 ^ 17 := by decide

/-- An edge, a command and an access on each side of the window. -/
theorem witness_StepRunsDecodedOperation :
    (arriving 5 (.operation (.read 2048 4))).cfg.wf = true
    ∧ (arriving 5 (.operation (.read 2048 4))).arrivals = ⟨5, .operation (.read 2048 4)⟩ :: []
    ∧ decodeStimulus Config.reference 5#32 (.read 2044 4) = .ok (.rd 0x7FC#11 4)
    ∧ Config.reference.base + 2048 ≤ 2048 ∧ 0x400007FF < basedConfig.base ∧ State.reset.arrivals = [] :=
  ⟨by decide, rfl, by decide, by decide, by decide, rfl⟩

theorem witness_FetchWordRunsNext :
    State.reset.cfg.wf = true ∧ State.reset.ticks.toNat < 2 ^ State.reset.cfg.tickBits ∧ 0xFFFFFFFF < 2 ^ 32 := by decide

/-- A well-formed term of every constructor. -/
theorem witness_DecodeInvertsEncode :
    basedConfig.wf = true
    ∧ ∀ i ∈ [Instr.edge 0xFFFFFFFF#32, .nop, .take, .decode, .resolve, .illegal 0x80000001#32, .rd 0x7FF#11 8,
      .wr 0x000#11 4 0x00000003#32, .wr 0x014#11 4 7#32], i.wf basedConfig = true := by decide

end Sys2Proof.Tests
end

section
/-! PROOFS. The scope of the block (00_scope.md): the parameters are never written (R7), a configuration
that breaks a constraint has no meaning (R9), and the condition of R10 on KEY_TABLE is not enough for its
scenario. -/

namespace Sys2Proof.Machine

/-! ### What no operation touches

The parameters, TICKS and the arrivals to come are written by no operation: one lemma for each effect,
then `effectOf_frame` for all of them (10_state.md R43). -/

theorem captureEdge_frame (now : Tick) (s : State) :
    (captureEdge now s).cfg = s.cfg ∧ (captureEdge now s).ticks = s.ticks
      ∧ (captureEdge now s).arrivals = s.arrivals := by
  rcases captureEdge_cases now s with ⟨_, e⟩ | ⟨_, _, e⟩ | ⟨_, _, _, e⟩ | ⟨_, _, _, e⟩ <;> simp [e]

theorem decodeSnapshot_frame (s : State) :
    (decodeSnapshot s).cfg = s.cfg ∧ (decodeSnapshot s).ticks = s.ticks
      ∧ (decodeSnapshot s).arrivals = s.arrivals := by
  obtain ⟨o, i, c, h⟩ := decodeSnapshot_writes s.cfg s.snap
  simp [h s rfl rfl]

theorem resolveCode_frame (s : State) :
    (resolveCode s).cfg = s.cfg ∧ (resolveCode s).ticks = s.ticks
      ∧ (resolveCode s).arrivals = s.arrivals := ⟨rfl, rfl, rfl⟩

theorem refuseCommand_frame (word : Word) (s : State) :
    (refuseCommand word s).cfg = s.cfg ∧ (refuseCommand word s).ticks = s.ticks
      ∧ (refuseCommand word s).arrivals = s.arrivals := ⟨rfl, rfl, rfl⟩

theorem dispatch_frame (v : Word) (s : State) :
    (dispatch v s).cfg = s.cfg ∧ (dispatch v s).ticks = s.ticks
      ∧ (dispatch v s).arrivals = s.arrivals := by
  unfold dispatch
  split_ifs
  · exact ⟨rfl, rfl, rfl⟩
  · simp
  · exact decodeSnapshot_frame s
  · exact resolveCode_frame s
  · exact refuseCommand_frame v s

theorem readAccess_frame (off : Offset) (width : Nat) (s : State) :
    (readAccess off width s).cfg = s.cfg ∧ (readAccess off width s).ticks = s.ticks
      ∧ (readAccess off width s).arrivals = s.arrivals := by
  rcases readAccess_cases off width s with ⟨r, _, e⟩ | ⟨_, e⟩ <;> simp [e]

theorem writeAccess_frame (off : Offset) (width : Nat) (v : Word) (s : State) :
    (writeAccess off width v s).cfg = s.cfg ∧ (writeAccess off width v s).ticks = s.ticks
      ∧ (writeAccess off width v s).arrivals = s.arrivals := by
  rcases writeAccess_cases off width v s with ⟨_, _, e⟩ | ⟨_, _, e⟩ | ⟨_, e⟩ <;> rw [e]
  · exact dispatch_frame v s
  · simp
  · simp

/-- No operation writes a parameter, TICKS or the list of arrivals (00_scope.md R7, 10_state.md R42). -/
theorem effectOf_frame (i : Instr) (s : State) :
    (effectOf i s).cfg = s.cfg ∧ (effectOf i s).ticks = s.ticks ∧ (effectOf i s).arrivals = s.arrivals := by
  cases i with
  | edge now => exact captureEdge_frame now s
  | nop => exact ⟨rfl, rfl, rfl⟩
  | take => exact ⟨rfl, rfl, rfl⟩
  | decode => exact decodeSnapshot_frame s
  | resolve => exact resolveCode_frame s
  | illegal word => exact refuseCommand_frame word s
  | rd off width => exact readAccess_frame off width s
  | wr off width value => exact writeAccess_frame off width value s

@[simp] theorem effectOf_cfg (i : Instr) (s : State) : (effectOf i s).cfg = s.cfg := (effectOf_frame i s).1

theorem exec_cfg {i : Instr} {s t : State} (h : exec i s = .next t) : t.cfg = s.cfg := by
  obtain ⟨_, rfl⟩ := exec_next h
  exact effectOf_cfg i s

theorem step_cfg {s t : State} (h : step s = .next t) : t.cfg = s.cfg := by
  obtain ⟨_, ⟨_, rfl⟩ | ⟨a, rest, _, ⟨_, rfl⟩ | ⟨o, i, _, _, rfl⟩⟩⟩ := step_cases h
  · rfl
  · simp
  · simp

/-- Settles O37: each effect keeps the parameters, and a step is a wait, a reset or one effect. -/
theorem parametersNeverChange : Obligations.ParametersNeverChange :=
  ⟨fun _ _ _ h => exec_cfg h, fun _ _ h => step_cfg h⟩

/-! ### Configurations without a meaning -/

theorem exec_of_not_wf (i : Instr) {s : State} (h : s.cfg.wf = false) :
    exec i s = .refused .illFormedConfig := by
  rw [exec_eq_configured, configured_of_not_wf h]

/-- Settles O38: `wf_iff` lists the constraints, and the guard stands before every effect and every step. -/
theorem illFormedConfigurationIsRefused : Obligations.IllFormedConfigurationIsRefused := by
  refine ⟨fun cfg => ?_, fun s h => ⟨fun i => exec_of_not_wf i h, step_of_not_wf h⟩⟩
  rw [wf_iff]
  simp only [List.forall_mem_cons, List.not_mem_nil, false_imp_iff, implies_true, and_true, and_assoc]

/-! ### The condition of R10 -/

/-- A block whose table has an entry 0x00FF38C5 before "OK", with CODE one between the two codes. -/
def earlierTie : State :=
  { State.resetWith { Config.reference with keyTable := [⟨"K3", 0x00FF38C5#32⟩, ⟨"OK", 0x00FF38C7#32⟩] } 0#32 with
    code := 0x00FF38C6#32 }

theorem earlierTie_wf : earlierTie.cfg.wf = true := by decide

theorem earlierTie_meetsR10 : earlierTie.cfg.meetsR10 :=
  ⟨[⟨"K3", 0x00FF38C5#32⟩], [], rfl, by decide, by decide⟩

/-- Both entries are at distance 1, and the earlier one keeps the tie (42_resolver.md R194). -/
theorem resolveCode_earlierTie : resolveCode earlierTie = writeMatch 0#16 1#32 earlierTie := by decide

/-- Refutes O23: `earlierTie` meets R10's condition and resolves to "K3". -/
theorem not_scopeConditionGivesOkScenario : ¬ Obligations.ScopeConditionGivesOkScenario := by
  intro h
  obtain ⟨t, e, ht, he, hok⟩ := h earlierTie earlierTie_wf earlierTie_meetsR10 rfl
  obtain ⟨_, rfl⟩ := exec_next ht
  have hkey : (effectOf .resolve earlierTie).key = 0#16 := by
    change (resolveCode earlierTie).key = 0#16
    rw [resolveCode_earlierTie, writeMatch_key]
  have hk3 : e = ⟨"K3", 0x00FF38C5#32⟩ := by
    rw [hkey] at he
    exact (Option.some.inj he).symm
  subst hk3
  exact absurd hok (by decide)

end Sys2Proof.Machine
end

section
/-! PROOFS. The state (10_state.md): the writers of each element (R43), TICKS (R42), and the invariants
of R44, which reset has, every step keeps, and so every reachable state has. -/

namespace Sys2Proof.Machine

/-! ### The writers of each element -/

/-- A legal write to CMD performs a command, so a write that performs itself can only write CODE or fault
(43_host_access.md R211). -/
theorem writeAccess_cases_of_performs {off : Offset} {width : Nat} {v : Word}
    (h : (Instr.wr off width v).performs = .wr off width v) (s : State) :
    (width = 4 ∧ off = 0x014#11 ∧ writeAccess off width v s = writeCode v s) ∨
    writeAccess off width v s = raiseFault .bus s := by
  rcases writeAccess_cases off width v s with ⟨rfl, rfl, _⟩ | hcode | ⟨_, hfault⟩
  · rw [performs_wr_cmd, decodeCommand_eq] at h
    split_ifs at h
  · exact .inl hcode
  · exact .inr hfault

/-- EDGE writes BUF, by at most one append, the baseline, and OVF, which it never clears. -/
theorem captureEdge_writes (now : Tick) (s : State) :
    captureEdge now s = { s with
        buf := (captureEdge now s).buf, prevValid := true, prevTime := (captureEdge now s).prevTime
        ovf := (captureEdge now s).ovf }
      ∧ ((captureEdge now s).buf = s.buf ∨ ∃ v, (captureEdge now s).buf = s.buf ++ [v])
      ∧ (s.ovf = true → (captureEdge now s).ovf = true) := by
  rcases captureEdge_cases now s with ⟨_, e⟩ | ⟨_, _, e⟩ | ⟨_, _, _, e⟩ | ⟨_, _, _, e⟩ <;> rw [e]
  · exact ⟨rfl, .inl rfl, id⟩
  · exact ⟨rfl, .inl rfl, id⟩
  · exact ⟨rfl, .inl rfl, fun _ => rfl⟩
  · exact ⟨rfl, .inr ⟨_, rfl⟩, id⟩

theorem decodeSnapshot_writes_result (s : State) :
    decodeSnapshot s = { s with
      outcome := (decodeSnapshot s).outcome, failIndex := (decodeSnapshot s).failIndex
      code := (decodeSnapshot s).code } := by
  obtain ⟨o, i, c, h⟩ := decodeSnapshot_writes s.cfg s.snap
  rw [h s rfl rfl]
  rfl

theorem readAccess_writes (off : Offset) (width : Nat) (s : State) :
    readAccess off width s = { s with
        rdData := (readAccess off width s).rdData, faultBus := (readAccess off width s).faultBus }
      ∧ (s.faultBus = true → (readAccess off width s).faultBus = true) := by
  rcases readAccess_cases off width s with ⟨r, _, e⟩ | ⟨_, e⟩ <;> rw [e]
  · exact ⟨rfl, id⟩
  · exact ⟨rfl, fun _ => rfl⟩

theorem writeAccess_writes {off : Offset} {width : Nat} {v : Word}
    (h : (Instr.wr off width v).performs = .wr off width v) (s : State) :
    writeAccess off width v s = { s with
        code := (writeAccess off width v s).code, faultBus := (writeAccess off width v s).faultBus }
      ∧ (s.faultBus = true → (writeAccess off width v s).faultBus = true) := by
  rcases writeAccess_cases_of_performs h s with ⟨_, _, e⟩ | e <;> rw [e]
  · exact ⟨rfl, id⟩
  · exact ⟨rfl, fun _ => rfl⟩

/-- Settles O36: an operation has the effect of the one it performs, whose writes stand in the lemmas
above; the reset input is `assertReset` on the state that the arrival leaves. -/
theorem writersOfEachElement : Obligations.WritersOfEachElement := by
  refine ⟨fun i s t h => ?_, fun s e rest hw hp => ?_⟩
  · obtain ⟨_, rfl⟩ := exec_next h
    rw [← effectOf_performs i s]
    have hself := performs_performs i
    generalize i.performs = j at hself
    cases j with
    | edge now => exact captureEdge_writes now s
    | nop => rfl
    | take => rfl
    | decode => exact decodeSnapshot_writes_result s
    | resolve => rfl
    | illegal word => rfl
    | rd off width => exact readAccess_writes off width s
    | wr off width v => exact writeAccess_writes hself s
  · exact ⟨_, step_arrival hw hp, rfl⟩

/-! ### TICKS -/

@[simp] theorem effectOf_ticks (i : Instr) (s : State) : (effectOf i s).ticks = s.ticks :=
  (effectOf_frame i s).2.1

/-- Whatever the event, a step leaves in TICKS what the passing of its arrival's time has made of it. -/
theorem step_ticks {s t : State} {a : Arrival} {rest : List Arrival} (hp : s.arrivals = a :: rest)
    (h : step s = .next t) : t.ticks = ticksAfter s.cfg s.ticks a.elapsed := by
  obtain ⟨_, ⟨hidle, _⟩ | ⟨b, rest', hb, hev⟩⟩ := step_cases h
  · simp [hidle] at hp
  · obtain ⟨rfl, rfl⟩ := List.cons.inj (hp.symm.trans hb)
    rcases hev with ⟨_, rfl⟩ | ⟨o, i, _, _, rfl⟩
    · simp
    · simp

/-- TICKS wraps from 2^W - 1 to 0 (10_state.md R42). -/
theorem ticksAfter_wraps {cfg : Config} (h : cfg.wf = true) :
    ticksAfter cfg (BitVec.ofNat 32 (2 ^ cfg.tickBits - 1)) 1 = 0#32 := by
  have hle := two_pow_tickBits_le h
  have hpos : 0 < 2 ^ cfg.tickBits := Nat.two_pow_pos _
  have hfits : 2 ^ cfg.tickBits - 1 < 2 ^ 32 := by omega
  apply BitVec.eq_of_toNat_eq
  rw [ticksAfter_toNat h, BitVec.toNat_ofNat, Nat.mod_eq_of_lt hfits, Nat.sub_add_cancel hpos]
  exact Nat.mod_self _

/-- Settles O39: no effect writes TICKS, and a step writes it by the passing of time alone. -/
theorem ticksAdvanceWithTimeAlone : Obligations.TicksAdvanceWithTimeAlone := by
  refine ⟨fun i s t h => ?_, fun s t e ev rest hp h => ?_, fun cfg => ticksAfter_wraps⟩
  · obtain ⟨_, rfl⟩ := exec_next h
    exact effectOf_ticks i s
  · rw [step_ticks hp h, ticksAfter_toNat (step_cases h).1]

/-! ### The invariant at reset -/

/-- The state after reset has the invariant, with anything to arrive and anything last read. -/
theorem inv_reset {cfg : Config} {k : Tick} (hw : cfg.wf = true) (hk : k.toNat < 2 ^ cfg.tickBits)
    (arrivals : List Arrival) (lastRead : Word) :
    State.Inv { State.resetWith cfg k with arrivals := arrivals, rdData := lastRead } where
  configLegal := hw
  bufBelowGap := fun _ hv => absurd hv List.not_mem_nil
  snapBelowGap := fun _ hv => absurd hv List.not_mem_nil
  cntBounded := Nat.zero_le _
  snapCountBounded := Nat.zero_le _
  keyInTable := (wf_keyTable hw).1
  failIndexOk := rfl
  prevTimeInRange := Nat.two_pow_pos _
  ticksInRange := hk

/-- Settles O43, by `inv_reset`. -/
theorem resetSatisfiesInvariant : Obligations.ResetSatisfiesInvariant :=
  ⟨inv_reset (cfg := Config.reference) (k := 0#32) (by decide) (by decide) [] 0#32,
    fun _ _ hw hk => inv_reset hw hk [] 0#32⟩

/-! ### Each write keeps the invariant

A write that touches no element the invariant speaks of (OVF, CODE, the fault bits, the value returned)
keeps it field by field; the others keep it when the value written is within its bound. -/

section
variable {s : State} (h : s.Inv)
include h

theorem inv_setBaseline {now : Tick} (hn : now.toNat < 2 ^ s.cfg.tickBits) : (setBaseline now s).Inv :=
  { h with prevTimeInRange := hn }

theorem inv_setOverflow : (setOverflow s).Inv := { h with }

theorem inv_appendInterval {delta : Interval} (hd : delta.toNat < s.cfg.maxGap) (hc : s.cnt < s.cfg.nBuf) :
    (appendInterval delta s).Inv :=
  { h with
    bufBelowGap := by
      intro v hv
      rcases List.mem_append.1 hv with hv | hv
      · exact h.bufBelowGap v hv
      · rwa [List.mem_singleton.1 hv]
    cntBounded := by simpa [State.cnt] using hc }

theorem inv_exchangeBuffer : (exchangeBuffer s).Inv :=
  { h with
    bufBelowGap := fun _ hv => absurd hv List.not_mem_nil
    snapBelowGap := h.bufBelowGap
    cntBounded := Nat.zero_le _
    snapCountBounded := h.cntBounded }

theorem inv_writeDecode {o : DecodeOutcome} {i : BitVec 7} (c : Word) (hi : failIndexLegal o i.toNat) :
    (writeDecode o i c s).Inv :=
  { h with failIndexOk := hi }

theorem inv_writeMatch {k : BitVec 16} (d : Word) (hk : k.toNat < s.cfg.keyCount) : (writeMatch k d s).Inv :=
  { h with keyInTable := hk }

theorem inv_writeCode (v : Word) : (writeCode v s).Inv := { h with }

theorem inv_returnData (v : Word) : (returnData v s).Inv := { h with }

theorem inv_raiseFault (cause : FaultCause) : (raiseFault cause s).Inv := by
  cases cause with
  | bus => exact { h with }
  | command => exact { h with }

theorem inv_takeArrival (elapsed : Nat) (rest : List Arrival) : (takeArrival elapsed rest s).Inv :=
  { h with ticksInRange := ticksAfter_lt h.configLegal s.ticks elapsed }

theorem inv_assertReset : (assertReset s).Inv := inv_reset h.configLegal h.ticksInRange s.arrivals s.rdData

end

/-! ### The values that DECODE and RESOLVE write are within their bounds -/

theorem failIndexLegal_le {o : DecodeOutcome} {n : Nat} (h : failIndexLegal o n) : n ≤ 65 := by
  cases o <;> simp only [failIndexLegal] at h <;> omega

/-- Every failure of DECODE names an index that its OUTCOME admits: 0, or from the loop's pair j the mark
at 2 + 2j or the space at 3 + 2j (30_encoding.md R107). -/
theorem decodeFn_error_failIndexLegal {cfg : Config} (hw : cfg.wf = true) {p : List Interval} {f : Failure}
    (hf : decodeFn cfg p = .error f) : failIndexLegal (outcomeOf f.reason) f.index := by
  unfold decodeFn at hf
  split at hf
  · cases hf; rfl
  split at hf
  · split at hf
    · next g hloop =>
      cases hf
      rcases decodeBits_cases hw p 32 2 0#32 with ⟨c, e, _⟩ | ⟨j, hj, _, ⟨_, e⟩ | ⟨_, _, e⟩⟩ <;>
        rw [hloop] at e <;> cases e
      · simp only [outcomeOf, failIndexLegal]
        omega
      · simp only [outcomeOf, failIndexLegal]
        omega
    · split at hf <;> cases hf
      rfl
  · cases hf; rfl

theorem inv_decodeSnapshot {s : State} (h : s.Inv) : (decodeSnapshot s).Inv := by
  unfold decodeSnapshot
  cases hv : decodeFn s.cfg s.snap with
  | ok code => exact inv_writeDecode h code rfl
  | error f =>
    have hlegal := decodeFn_error_failIndexLegal h.configLegal hv
    have hle := failIndexLegal_le hlegal
    have hfits : (BitVec.ofNat 7 f.index).toNat = f.index := by
      rw [BitVec.toNat_ofNat]
      exact Nat.mod_eq_of_lt (by omega)
    exact inv_writeDecode h _ (by rwa [hfits])

/-- The nearest entry's index lies in the table, which has at most 65535 entries (00_scope.md R8), so KEY
holds it whole. -/
theorem inv_resolveCode {s : State} (h : s.Inv) : (resolveCode s).Inv := by
  obtain ⟨hne, hmax⟩ := wf_keyTable h.configLegal
  obtain ⟨e, _, hnear⟩ := nearestKey_spec hne s.code
  have hidx := hnear.index_lt
  refine inv_writeMatch h _ ?_
  rw [BitVec.toNat_ofNat, Nat.mod_eq_of_lt (by omega)]
  exact hidx

/-! ### Every operation that a stimulus decodes to keeps the invariant -/

theorem inv_captureEdge {s : State} (h : s.Inv) {now : Tick} (hn : now.toNat < 2 ^ s.cfg.tickBits) :
    (captureEdge now s).Inv := by
  rcases captureEdge_cases now s with ⟨_, e⟩ | ⟨_, _, e⟩ | ⟨_, _, _, e⟩ | ⟨_, hd, hc, e⟩ <;> rw [e]
  · exact inv_setBaseline h hn
  · exact inv_setBaseline h hn
  · exact inv_setBaseline (inv_setOverflow h) hn
  · exact inv_setBaseline (inv_appendInterval h hd hc) hn

theorem inv_readAccess {s : State} (h : s.Inv) (off : Offset) (width : Nat) : (readAccess off width s).Inv := by
  rcases readAccess_cases off width s with ⟨r, _, e⟩ | ⟨_, e⟩ <;> rw [e]
  · exact inv_returnData h _
  · exact inv_returnData (inv_raiseFault h .bus) _

theorem inv_writeAccess {s : State} (h : s.Inv) {off : Offset} {width : Nat} {v : Word}
    (hi : (Instr.wr off width v).performs = .wr off width v) : (writeAccess off width v s).Inv := by
  rcases writeAccess_cases_of_performs hi s with ⟨_, _, e⟩ | e <;> rw [e]
  · exact inv_writeCode h v
  · exact inv_raiseFault h .bus

/-- A command word selects a well-formed command: ILLEGAL only for a word that is none of the four. -/
theorem decodeCommand_wf (cfg : Config) (w : Word) : (decodeCommand w).wf cfg = true := by
  rw [decodeCommand_eq]
  split_ifs with h0 h1 h2 h3
  · rfl
  · rfl
  · rfl
  · rfl
  · simp [Instr.wf, legalCommandWords, h0, h1, h2, h3]

/-- What an operation performs is as well formed as the operation. -/
theorem performs_wf {cfg : Config} {i : Instr} (h : i.wf cfg = true) : i.performs.wf cfg = true := by
  cases i with
  | wr off width v =>
    cases hc : isCommandWrite off width with
    | true =>
      obtain ⟨rfl, rfl⟩ := (isCommandWrite_iff off width).1 hc
      exact decodeCommand_wf cfg v
    | false => rwa [performs_wr_of_not hc]
  | _ => exact h

/-- While TICKS is a W-bit value, the operation that a stimulus decodes to is well formed, and it performs
itself: the decoder has already put a command in the place of its write to CMD (log entry 11). -/
theorem decodeStimulus_wf_performs {cfg : Config} {k : Tick} {o : Stimulus} {i : Instr}
    (hk : k.toNat < 2 ^ cfg.tickBits) (h : decodeStimulus cfg k o = .ok i) :
    i.wf cfg = true ∧ i.performs = i := by
  cases o with
  | edge =>
    cases h
    exact ⟨decide_eq_true hk, rfl⟩
  | read addr width =>
    simp only [decodeStimulus] at h
    split at h
    · cases h
      exact ⟨rfl, rfl⟩
    · cases h
  | write addr width v =>
    simp only [decodeStimulus] at h
    split at h
    · cases h
      exact ⟨performs_wf rfl, performs_performs _⟩
    · cases h

theorem inv_effectOf {s : State} (h : s.Inv) {i : Instr} (hwf : i.wf s.cfg = true) (hi : i.performs = i) :
    (effectOf i s).Inv := by
  cases i with
  | edge now => exact inv_captureEdge h (of_decide_eq_true hwf)
  | nop => exact h
  | take => exact inv_exchangeBuffer h
  | decode => exact inv_decodeSnapshot h
  | resolve => exact inv_resolveCode h
  | illegal word => exact inv_raiseFault h .command
  | rd off width => exact inv_readAccess h off width
  | wr off width v => exact inv_writeAccess h hi

theorem inv_step {s t : State} (h : s.Inv) (hs : step s = .next t) : t.Inv := by
  obtain ⟨hw, ⟨_, rfl⟩ | ⟨a, rest, _, ⟨_, rfl⟩ | ⟨o, i, _, hi, rfl⟩⟩⟩ := step_cases hs
  · exact h
  · exact inv_assertReset (inv_takeArrival h _ _)
  · obtain ⟨hwf, hself⟩ := decodeStimulus_wf_performs (ticksAfter_lt hw s.ticks a.elapsed) hi
    exact inv_effectOf (inv_takeArrival h _ _) hwf hself

/-! ### CODE under a failure OUTCOME -/

/-- 10_state.md R44 (e) while no host write of CODE has followed the last DECODE. -/
def State.CodeClear (s : State) : Prop := isFailure s.outcome = true → s.code = 0#32

theorem codeClear_congr {s t : State} (ho : t.outcome = s.outcome) (hc : t.code = s.code) (h : s.CodeClear) :
    t.CodeClear := by
  unfold State.CodeClear
  rw [ho, hc]
  exact h

theorem codeClear_decodeSnapshot (s : State) : (decodeSnapshot s).CodeClear := decodeSnapshot_code_of_failure

/-- Every operation but a legal write of CODE keeps CODE 0 under a failure OUTCOME: DECODE makes it so, and
the others write neither element. -/
theorem codeClear_effectOf {s : State} (h : s.CodeClear) {i : Instr} (hi : i.performs = i)
    (hcode : ∀ v, i ≠ .wr 0x014#11 4 v) : (effectOf i s).CodeClear := by
  cases i with
  | edge now =>
    have hwrites := (captureEdge_writes now s).1
    exact codeClear_congr (congrArg State.outcome hwrites) (congrArg State.code hwrites) h
  | nop => exact h
  | take => exact codeClear_congr rfl rfl h
  | decode => exact codeClear_decodeSnapshot s
  | resolve => exact codeClear_congr rfl rfl h
  | illegal word => exact codeClear_congr rfl rfl h
  | rd off width =>
    have hwrites := (readAccess_writes off width s).1
    exact codeClear_congr (congrArg State.outcome hwrites) (congrArg State.code hwrites) h
  | wr off width v =>
    rcases writeAccess_cases_of_performs hi s with ⟨rfl, rfl, _⟩ | e
    · exact absurd rfl (hcode v)
    · change (writeAccess off width v s).CodeClear
      rw [e]
      exact codeClear_congr rfl rfl h

/-- When the flag is down after an operation, the operation was a DECODE, or it was no legal write of CODE
and the flag was down before it. -/
theorem codeWrittenAfter_eq_false {s : State} {a : Arrival} {rest : List Arrival} {o : Stimulus} {k : Tick}
    {i : Instr} {written : Bool} (hp : s.arrivals = a :: rest) (he : a.event = .operation o)
    (hi : decodeStimulus s.cfg k o = .ok i) (h : codeWrittenAfter s written = false) :
    i = .decode ∨ (written = false ∧ ∀ v, i ≠ .wr 0x014#11 4 v) := by
  rw [codeWrittenAfter_operation hp he hi] at h
  cases i with
  | decode => exact .inl rfl
  | wr off width v =>
    obtain ⟨hwritten, hno⟩ := Bool.or_eq_false_iff.1 h
    refine .inr ⟨hwritten, fun v' heq => ?_⟩
    cases heq
    simp at hno
  | _ => exact .inr ⟨h, fun _ heq => nomatch heq⟩

theorem codeClear_step {s t : State} {written : Bool} (h : written = false → s.CodeClear) (hinv : s.Inv)
    (hs : step s = .next t) (hflag : codeWrittenAfter s written = false) : t.CodeClear := by
  obtain ⟨hw, ⟨hp, rfl⟩ | ⟨a, rest, hp, ⟨_, rfl⟩ | ⟨o, i, he, hi, rfl⟩⟩⟩ := step_cases hs
  · rw [codeWrittenAfter_idle hp] at hflag
    exact h hflag
  · exact fun _ => rfl
  · obtain ⟨_, hself⟩ := decodeStimulus_wf_performs (ticksAfter_lt hw s.ticks a.elapsed) hi
    rcases codeWrittenAfter_eq_false hp he hi hflag with rfl | ⟨hwritten, hcode⟩
    · exact codeClear_decodeSnapshot _
    · exact codeClear_effectOf (codeClear_congr (t := takeArrival a.elapsed rest s) rfl rfl (h hwritten)) hself hcode

/-- Settles O42: `inv_step` for the elements' bounds, `codeClear_step` for CODE. -/
theorem stepKeepsInvariant : Obligations.StepKeepsInvariant := fun _ _ _ hinv hclear hs =>
  ⟨inv_step hinv hs, codeClear_step hclear hinv hs⟩

/-! ### Every reachable state -/

theorem reachable_inv {cfg : Config} {s : State} {written : Bool} (hw : cfg.wf = true)
    (h : Reachable cfg s written) : s.Inv ∧ (written = false → s.CodeClear) := by
  induction h with
  | reset ticks arrivals hk => exact ⟨inv_reset hw hk arrivals 0#32, fun _ _ => rfl⟩
  | step _ hs ih => exact stepKeepsInvariant _ _ _ ih.1 ih.2 hs

/-- R44 (d) in its weaker form, from the parity that R107 gives. -/
theorem failIndexLegal_mismatch {o : DecodeOutcome} {n : Nat} (h : failIndexLegal o n)
    (ho : o = .bitMarkMismatch ∨ o = .bitSpaceMismatch) : 2 ≤ n ∧ n ≤ 65 := by
  refine ⟨?_, failIndexLegal_le h⟩
  rcases ho with rfl | rfl
  · exact h.2.1
  · exact le_trans (by decide) h.2.1

theorem failIndexLegal_other {o : DecodeOutcome} {n : Nat} (h : failIndexLegal o n)
    (hm : o ≠ .bitMarkMismatch) (hs : o ≠ .bitSpaceMismatch) : n = 0 := by
  cases o with
  | bitMarkMismatch => exact absurd rfl hm
  | bitSpaceMismatch => exact absurd rfl hs
  | _ => exact h

/-- Settles O41: `reachable_inv`, by induction on the run with O42 as the step. -/
theorem invariantsHoldInEveryReachableState : Obligations.InvariantsHoldInEveryReachableState := by
  intro cfg s written hw hr
  obtain ⟨hinv, hclear⟩ := reachable_inv hw hr
  exact ⟨hinv.bufBelowGap, hinv.snapBelowGap, hinv.cntBounded, hinv.snapCountBounded, hinv.keyInTable,
    fun hm hs => BitVec.eq_of_toNat_eq (failIndexLegal_other hinv.failIndexOk hm hs),
    failIndexLegal_mismatch hinv.failIndexOk, hclear⟩

end Sys2Proof.Machine
end

section
/-! PROOFS. The register window as the host sees it (20_memory.md): a legal read changes nothing of the
block (R75), the byte lanes are little-endian (R74), and no host operation but TAKE and the reads of STATUS
and COUNT races an edge (R82). -/

namespace Sys2Proof.Machine

/-! ### Byte lanes -/

theorem lanesOf_getElem? (w : Word) {j : Nat} (hj : j < 4) : (lanesOf w)[j]? = some (laneOf w j) := by
  interval_cases j <;> rfl

/-- Settles O49: `laneOf_getLsbD` for each lane, `wordOfLanes_lanesOf` for the way back. -/
theorem byteLanesAreLittleEndian : Obligations.ByteLanesAreLittleEndian := fun w =>
  ⟨wordOfLanes_lanesOf w, rfl, fun j hj =>
    ⟨laneOf w j, lanesOf_getElem? w hj, fun n hn => laneOf_getLsbD w j n hn⟩⟩

/-! ### Legal reads -/

/-- A read passes every check exactly when it is a legal one (43_host_access.md R210, R217). -/
theorem checkAccess_read_ok_iff (cfg : Config) (off : Offset) (width : Nat) :
    (∃ r, checkAccess cfg .read off width = .ok r) ↔
      width = 4 ∧ off.toNat % 4 = 0 ∧ mapped cfg off.toNat ∧ off ≠ 0x000#11 := by
  simp only [checkAccess_ok_iff, allows_read_iff]
  constructor
  · rintro ⟨r, hw, ha, hr, hcmd⟩
    have hmapped : mapped cfg off.toNat := (regAt_isSome_iff cfg ha).1 (by rw [hr]; rfl)
    refine ⟨hw, ha, hmapped, fun hoff => hcmd ?_⟩
    rw [(regAt_cmd_iff cfg off).2 hoff] at hr
    exact (Option.some.inj hr).symm
  · rintro ⟨hw, ha, hm, hoff⟩
    obtain ⟨r, hr⟩ := Option.isSome_iff_exists.1 ((regAt_isSome_iff cfg ha).2 hm)
    refine ⟨r, hw, ha, hr, ?_⟩
    rintro rfl
    exact hoff ((regAt_cmd_iff cfg off).1 hr)

theorem readAccess_of_ok {off : Offset} {width : Nat} {s : State} {r : Reg}
    (h : checkAccess s.cfg .read off width = .ok r) :
    readAccess off width s = returnData (regValue s r) s := by
  rw [readAccess, h]

theorem readAccess_of_error {off : Offset} {width : Nat} {s : State}
    (h : ∀ r, checkAccess s.cfg .read off width ≠ .ok r) :
    readAccess off width s = returnData 0#32 (raiseFault .bus s) := by
  rcases readAccess_cases off width s with ⟨r, hr, _⟩ | ⟨_, e⟩
  · exact absurd hr (h r)
  · exact e

/-- No register shows the value that the host last read. -/
@[simp] theorem regValue_returnData (v : Word) (s : State) (r : Reg) :
    regValue (returnData v s) r = regValue s r := by
  cases r <;> rfl

/-- Settles O27: the register's value is the one returned, and returning it changes no register. -/
theorem legalReadsAreIdempotent : Obligations.LegalReadsAreIdempotent := by
  intro s off hw ha hm hoff
  obtain ⟨r, hr⟩ := (checkAccess_read_ok_iff s.cfg off 4).2 ⟨rfl, ha, hm, hoff⟩
  have hread : ∀ t : State, t.cfg = s.cfg → exec (.rd off 4) t = .next (returnData (regValue t r) t) := by
    intro t ht
    rw [exec_of_wf (.rd off 4) (ht ▸ hw)]
    exact congrArg _ (readAccess_of_ok (ht ▸ hr))
  have hagain := hread (returnData (regValue s r) s) rfl
  rw [regValue_returnData] at hagain
  exact ⟨regValue s r, hread s rfl, hagain⟩

/-! ### What an edge leaves to the host -/

theorem captureEdge_cfg (now : Tick) (s : State) : (captureEdge now s).cfg = s.cfg :=
  (captureEdge_frame now s).1

theorem captureEdge_snap (now : Tick) (s : State) : (captureEdge now s).snap = s.snap := by
  rw [(captureEdge_writes now s).1]

/-- An edge shows in no register but STATUS and COUNT. -/
theorem regValue_captureEdge (now : Tick) (s : State) {r : Reg} (hs : r ≠ .status) (hc : r ≠ .count) :
    regValue (captureEdge now s) r = regValue s r := by
  rw [(captureEdge_writes now s).1]
  cases r with
  | status => exact absurd rfl hs
  | count => exact absurd rfl hc
  | _ => rfl

/-! ### State changes apart from an edge -/

/-- A state change that keeps every element an edge reads, and that can be put before or after each write
an edge makes (40_capture.md R122). -/
structure ApartFromEdge (f : State → State) : Prop where
  cfg : ∀ s, (f s).cfg = s.cfg
  buf : ∀ s, (f s).buf = s.buf
  prevValid : ∀ s, (f s).prevValid = s.prevValid
  prevTime : ∀ s, (f s).prevTime = s.prevTime
  baseline : ∀ now s, setBaseline now (f s) = f (setBaseline now s)
  overflow : ∀ s, setOverflow (f s) = f (setOverflow s)
  append : ∀ delta s, appendInterval delta (f s) = f (appendInterval delta s)

section
variable {f : State → State} (h : ApartFromEdge f)
include h

theorem recordInterval_of_apart (delta : Interval) (s : State) :
    recordInterval delta (f s) = f (recordInterval delta s) := by
  have hcnt : (f s).cnt = s.cnt := congrArg List.length (h.buf s)
  rw [recordInterval, recordInterval, h.cfg, hcnt]
  split_ifs
  · exact h.append delta s
  · exact h.overflow s
  · rfl

/-- An edge commutes with every state change apart from it. -/
theorem captureEdge_of_apart (now : Tick) (s : State) : captureEdge now (f s) = f (captureEdge now s) := by
  rw [captureEdge, captureEdge, h.cfg, h.prevValid, h.prevTime]
  split_ifs
  · rw [recordInterval_of_apart h, h.baseline]
  · exact h.baseline now s

end

/-! Each write of a result, of a fault bit or of the returned value is apart from an edge; so is RESOLVE,
whose operands CODE and the table no edge writes. -/

theorem apart_writeDecode (o : DecodeOutcome) (i : BitVec 7) (c : Word) : ApartFromEdge (writeDecode o i c) := by
  constructor <;> intros <;> rfl

theorem apart_writeCode (v : Word) : ApartFromEdge (writeCode v) := by
  constructor <;> intros <;> rfl

theorem apart_returnData (v : Word) : ApartFromEdge (returnData v) := by
  constructor <;> intros <;> rfl

theorem apart_raiseFault (cause : FaultCause) : ApartFromEdge (raiseFault cause) := by
  cases cause <;> constructor <;> intros <;> rfl

theorem apart_resolveCode : ApartFromEdge resolveCode := by
  constructor <;> intros <;> rfl

/-! ### An edge and a host operation -/

/-- DECODE's verdict is of the parameters and SNAP (41_decoder.md R153), which an edge leaves. -/
theorem captureEdge_decodeSnapshot (now : Tick) (s : State) :
    captureEdge now (decodeSnapshot s) = decodeSnapshot (captureEdge now s) := by
  obtain ⟨o, i, c, h⟩ := decodeSnapshot_writes s.cfg s.snap
  rw [h s rfl rfl, h _ (captureEdge_cfg now s) (captureEdge_snap now s)]
  exact captureEdge_of_apart (apart_writeDecode o i c) now s

/-- A read commutes with an edge unless it is the legal read of STATUS or of COUNT. -/
theorem captureEdge_readAccess (now : Tick) {off : Offset} {width : Nat}
    (hs : Instr.rd off width ≠ .rd 0x004#11 4) (hc : Instr.rd off width ≠ .rd 0x008#11 4) (s : State) :
    captureEdge now (readAccess off width s) = readAccess off width (captureEdge now s) := by
  have hcfg := captureEdge_cfg now s
  rcases readAccess_cases off width s with ⟨r, hr, e⟩ | ⟨hbad, e⟩ <;> rw [e]
  · obtain ⟨rfl, _, hreg, _⟩ := (checkAccess_ok_iff ..).1 hr
    have hstatus : r ≠ .status := by
      rintro rfl
      exact hs (by rw [(regAt_status_iff ..).1 hreg])
    have hcount : r ≠ .count := by
      rintro rfl
      exact hc (by rw [(regAt_count_iff ..).1 hreg])
    rw [readAccess_of_ok (hcfg.symm ▸ hr), regValue_captureEdge now s hstatus hcount]
    exact captureEdge_of_apart (apart_returnData _) now s
  · rw [readAccess_of_error (hcfg.symm ▸ hbad), captureEdge_of_apart (apart_returnData _),
      captureEdge_of_apart (apart_raiseFault _)]

/-- A command word other than TAKE's selects a command that commutes with an edge. -/
theorem captureEdge_command (now : Tick) {w : Word} (ht : decodeCommand w ≠ .take) (s : State) :
    captureEdge now (effectOf (decodeCommand w) s) = effectOf (decodeCommand w) (captureEdge now s) := by
  rw [decodeCommand_eq] at ht ⊢
  split_ifs at ht ⊢
  · rfl
  · exact absurd rfl ht
  · exact captureEdge_decodeSnapshot now s
  · exact captureEdge_of_apart apart_resolveCode now s
  · exact captureEdge_of_apart (apart_raiseFault .command) now s

/-- A write that carries no command writes CODE or raises BusFault, the same one in every state. -/
theorem writeAccess_of_not_command {off : Offset} {width : Nat} (h : isCommandWrite off width = false) (v : Word) :
    writeAccess off width v = writeCode v ∨ writeAccess off width v = raiseFault .bus := by
  have hcmd : ¬ (width = 4 ∧ off = 0x000#11) := by
    rw [← isCommandWrite_iff, h]
    exact Bool.false_ne_true
  by_cases hcode : width = 4 ∧ off = 0x014#11
  · refine .inl (funext fun s => ?_)
    rcases writeAccess_cases off width v s with ⟨hw, ho, _⟩ | ⟨_, _, e⟩ | ⟨hn, _⟩
    · exact absurd ⟨hw, ho⟩ hcmd
    · exact e
    · exact absurd ⟨hcode.1, .inr hcode.2⟩ hn
  · refine .inr (funext fun s => ?_)
    rcases writeAccess_cases off width v s with ⟨hw, ho, _⟩ | ⟨hw, ho, _⟩ | ⟨_, e⟩
    · exact absurd ⟨hw, ho⟩ hcmd
    · exact absurd ⟨hw, ho⟩ hcode
    · exact e

theorem captureEdge_effectOf (now : Tick) {i : Instr} (hedge : ∀ k, i ≠ .edge k) (htake : i.performs ≠ .take)
    (hs : i ≠ .rd 0x004#11 4) (hc : i ≠ .rd 0x008#11 4) (s : State) :
    captureEdge now (effectOf i s) = effectOf i (captureEdge now s) := by
  cases i with
  | edge k => exact absurd rfl (hedge k)
  | nop => rfl
  | take => exact absurd rfl htake
  | decode => exact captureEdge_decodeSnapshot now s
  | resolve => exact captureEdge_of_apart apart_resolveCode now s
  | illegal word => exact captureEdge_of_apart (apart_raiseFault .command) now s
  | rd off width => exact captureEdge_readAccess now hs hc s
  | wr off width v =>
    cases hcmd : isCommandWrite off width with
    | true =>
      obtain ⟨rfl, rfl⟩ := (isCommandWrite_iff off width).1 hcmd
      simp only [← effectOf_performs (.wr 0x000#11 4 v), performs_wr_cmd]
      exact captureEdge_command now htake s
    | false =>
      change captureEdge now (writeAccess off width v s) = writeAccess off width v (captureEdge now s)
      rcases writeAccess_of_not_command hcmd v with e | e <;> rw [e]
      · exact captureEdge_of_apart (apart_writeCode v) now s
      · exact captureEdge_of_apart (apart_raiseFault .bus) now s

/-- Settles O40: both orders end in the operation's effect on the state that the edge leaves. -/
theorem edgeCommutesWithHostOperations : Obligations.EdgeCommutesWithHostOperations := by
  intro s now i hw hedge htake hs hc
  have hcomm := captureEdge_effectOf now hedge htake hs hc s
  refine ⟨captureEdge now s, effectOf i s, effectOf i (captureEdge now s), exec_of_wf (.edge now) hw,
    exec_of_wf i ?_, exec_of_wf i hw, ?_⟩
  · rwa [captureEdge_cfg]
  · rw [exec_of_wf (.edge now) (by rwa [effectOf_cfg])]
    exact congrArg _ hcomm

end Sys2Proof.Machine
end

section
/-! PROOFS. Encoding (30_encoding.md): a command word and its command determine each other (R102, R103), the
stimulus of an operation decodes to what the operation performs (R100), and a step runs the operation that
its arrival decodes to. -/

namespace Sys2Proof.Machine

/-! ### A command word and its command determine each other -/

theorem encodeCommand_decodeCommand (w : Word) : encodeCommand (decodeCommand w) = some w := by
  rw [decodeCommand_eq]
  split_ifs with h0 h1 h2 h3
  · rw [h0]; rfl
  · rw [h1]; rfl
  · rw [h2]; rfl
  · rw [h3]; rfl
  · rfl

/-- ILLEGAL is well formed exactly when its word is none of the four legal ones (30_encoding.md R103). -/
theorem wf_illegal_iff (cfg : Config) (word : Word) :
    (Instr.illegal word).wf cfg = true ↔ word ∉ legalCommandWords := by
  simp [Instr.wf]

/-- The word of a well-formed command selects that command. -/
theorem decodeCommand_of_encodeCommand {cfg : Config} {i : Instr} {w : Word} (hwf : i.wf cfg = true)
    (h : encodeCommand i = some w) : decodeCommand w = i := by
  cases i with
  | illegal word =>
    obtain rfl := Option.some.inj h
    exact decodeCommand_illegal ((wf_illegal_iff cfg word).1 hwf)
  | nop | take | decode | resolve => cases h; rfl
  | edge _ | rd _ _ | wr _ _ _ => cases h

/-- A word selects a well-formed operation exactly when it is the operation's command word. -/
theorem decodeCommand_eq_iff {cfg : Config} {i : Instr} (hwf : i.wf cfg = true) (w : Word) :
    decodeCommand w = i ↔ encodeCommand i = some w := by
  constructor
  · rintro rfl
    exact encodeCommand_decodeCommand w
  · exact decodeCommand_of_encodeCommand hwf

/-- A word is ILLEGAL exactly when it is none of the four legal ones (30_encoding.md R103). -/
theorem decodeCommand_eq_illegal_iff (w : Word) : decodeCommand w = .illegal w ↔ w ∉ legalCommandWords := by
  refine ⟨fun h => ?_, decodeCommand_illegal⟩
  have hwf := decodeCommand_wf Config.reference w
  rw [h] at hwf
  exact (wf_illegal_iff _ w).1 hwf

/-! ### The stimulus of an operation -/

/-- The stimulus of a command is the write of its word to CMD (30_encoding.md R101). -/
theorem encode_of_encodeCommand (cfg : Config) {i : Instr} {w : Word} (h : encodeCommand i = some w) :
    encode cfg i = commandWrite cfg w := by
  cases i with
  | nop | take | decode | resolve | illegal _ => cases h; rfl
  | edge _ | rd _ _ | wr _ _ _ => cases h

theorem decodeStimulus_encode_command {cfg : Config} {i : Instr} {w : Word} (hwf : i.wf cfg = true)
    (h : encodeCommand i = some w) (ticks : Tick) : decodeStimulus cfg ticks (encode cfg i) = .ok i := by
  rw [encode_of_encodeCommand cfg h, decodeStimulus_commandWrite, decodeCommand_of_encodeCommand hwf h]

theorem decodeStimulus_encode_rd (cfg : Config) (ticks : Tick) (off : Offset) (width : Nat) :
    decodeStimulus cfg ticks (encode cfg (.rd off width)) = .ok (.rd off width) := by
  simp [encode, decodeStimulus, windowOffset_hostAddress]

theorem decodeStimulus_encode_wr (cfg : Config) (ticks : Tick) (off : Offset) (width : Nat) (v : Word) :
    decodeStimulus cfg ticks (encode cfg (.wr off width v)) = .ok (Instr.wr off width v).performs := by
  simp [encode, decodeStimulus, windowOffset_hostAddress]

/-- Decoding the stimulus of a well-formed operation gives what the operation performs; an edge's timestamp
comes from TICKS (30_encoding.md R105). -/
theorem decodeStimulus_encode {cfg : Config} {i : Instr} {ticks : Tick} (hwf : i.wf cfg = true)
    (hedge : ∀ now, i = .edge now → ticks = now) :
    decodeStimulus cfg ticks (encode cfg i) = .ok i.performs := by
  cases i with
  | edge now => rw [hedge now rfl]; rfl
  | rd off width => exact decodeStimulus_encode_rd cfg ticks off width
  | wr off width v => exact decodeStimulus_encode_wr cfg ticks off width v
  | nop | take | decode | resolve | illegal _ => exact decodeStimulus_encode_command hwf rfl ticks

/-- Every operation but a legal write to CMD performs itself (43_host_access.md R212). -/
theorem performs_eq_self {i : Instr} (h : ∀ v, i ≠ .wr 0x000#11 4 v) : i.performs = i := by
  cases i with
  | wr off width v =>
    refine performs_wr_of_not (Bool.eq_false_iff.2 fun hcmd => ?_) v
    obtain ⟨rfl, rfl⟩ := (isCommandWrite_iff off width).1 hcmd
    exact h v rfl
  | _ => rfl

/-- Settles O46: the stimulus decodes to what the operation performs, which is the operation itself but for
a legal write to CMD; the bytes of a word decode as the word does. -/
theorem decodeInvertsEncode : Obligations.DecodeInvertsEncode := by
  intro cfg i _ hwf
  refine ⟨fun ticks hedge => ?_, fun w hw => ?_⟩
  · have hstim := decodeStimulus_encode hwf hedge
    refine ⟨fun hno => ?_, ?_⟩
    · rwa [performs_eq_self hno] at hstim
    · rintro v rfl
      rwa [performs_wr_cmd] at hstim
  · rw [decodeLanes_lanesOf, decodeCommand_of_encodeCommand hwf hw]

/-! ### Legal and illegal command words -/

/-- An operation runs as the operation it performs. -/
theorem exec_performs (i : Instr) (s : State) : exec i.performs s = exec i s := by
  simp only [exec_eq_configured, configured, effectOf_performs]

/-- A legal write to CMD runs as the command its word selects (43_host_access.md R212). -/
theorem exec_wr_cmd (w : Word) (s : State) : exec (.wr 0x000#11 4 w) s = exec (decodeCommand w) s :=
  (exec_performs (.wr 0x000#11 4 w) s).symm

/-- ILLEGAL sets FAULT_CMD and nothing else (43_host_access.md R214). -/
theorem exec_illegal {s : State} (h : s.cfg.wf = true) (word : Word) :
    exec (.illegal word) s = .next { s with faultCmd := true } := exec_of_wf (.illegal word) h

/-- A well-formed command with the word `c` is selected by `c` alone (30_encoding.md R102). -/
theorem decodeCommand_eq_iff_word_eq {cfg : Config} {i : Instr} {c : Word} (hwf : i.wf cfg = true)
    (hc : encodeCommand i = some c) (w : Word) : decodeCommand w = i ↔ w = c := by
  rw [decodeCommand_eq_iff hwf, hc, Option.some_inj, eq_comm]

/-- Settles O47: a well-formed command has one word, and a word that is none of the four runs as ILLEGAL. -/
theorem legalCommandWordsAreExactlyFour : Obligations.LegalCommandWordsAreExactlyFour := by
  refine ⟨fun s w hw hword => ?_, fun w => ⟨decodeCommand_eq_illegal_iff w, ?_, ?_, ?_, ?_⟩⟩
  · rw [exec_wr_cmd, decodeCommand_illegal hword, exec_illegal hw]
  · exact decodeCommand_eq_iff_word_eq (cfg := Config.reference) rfl rfl w
  · exact decodeCommand_eq_iff_word_eq (cfg := Config.reference) rfl rfl w
  · exact decodeCommand_eq_iff_word_eq (cfg := Config.reference) rfl rfl w
  · exact decodeCommand_eq_iff_word_eq (cfg := Config.reference) rfl rfl w

/-- Settles O48: each sequence of bytes is the lanes of its word, which selects the command. -/
theorem commandWordsDecode : Obligations.CommandWordsDecode :=
  ⟨decodeLanes_lanesOf 0x00000000#32, decodeLanes_lanesOf 0x00000001#32, decodeLanes_lanesOf 0x00000002#32,
    decodeLanes_lanesOf 0x00000003#32, decodeLanes_lanesOf 0x00000011#32, decodeLanes_lanesOf 0x01000000#32⟩

/-! ### A step runs the operation that its arrival decodes to -/

theorem performStimulus_of_ok {o : Stimulus} {s : State} {i : Instr}
    (h : decodeStimulus s.cfg s.ticks o = .ok i) : performStimulus o s = exec i s := by
  rw [performStimulus, h]

theorem performStimulus_of_error {o : Stimulus} {s : State} {e : BusError}
    (h : decodeStimulus s.cfg s.ticks o = .error e) : performStimulus o s = .refused (refusalOf e) := by
  rw [performStimulus, h]

/-- A bus access outside the window is none of the block's operations (20_memory.md R85; log entry 9). -/
theorem decodeStimulus_outsideWindow {cfg : Config} {addr : Nat} (h : addr < cfg.base ∨ cfg.base + 2048 ≤ addr)
    {o : Stimulus} {width : Nat} {v : Word} (ho : o = .read addr width ∨ o = .write addr width v) (ticks : Tick) :
    decodeStimulus cfg ticks o = .error (.outsideWindow addr) := by
  rcases ho with rfl | rfl
  · simp [decodeStimulus, windowOffset_none h]
  · simp [decodeStimulus, windowOffset_none h]

theorem step_operation {s : State} (hw : s.cfg.wf = true) {e : Nat} {o : Stimulus} {rest : List Arrival}
    (hp : s.arrivals = ⟨e, .operation o⟩ :: rest) : step s = performStimulus o (takeArrival e rest s) :=
  step_arrival hw hp

/-- Settles O44: the state that the arrival leaves is `takeArrival`, whose TICKS the decoder samples. -/
theorem stepRunsDecodedOperation : Obligations.StepRunsDecodedOperation := by
  refine fun s hw => ⟨?_, step_idle hw⟩
  rintro e o rest hp now rfl
  have hstep := step_operation hw hp
  refine ⟨fun i hi => ?_, ?_, fun addr width v ho haddr => ?_⟩
  · exact hstep.trans (performStimulus_of_ok (s := takeArrival e rest s) hi)
  · rintro rfl
    exact hstep
  · exact hstep.trans
      (performStimulus_of_error (s := takeArrival e rest s) (decodeStimulus_outsideWindow haddr ho _))

/-! ### A command word placed as the next write to CMD -/

theorem decodeTableWord_32 (w : Nat) : decodeTableWord 32 w = some (decodeCommand (tableWord 32 w)) := by
  simp [decodeTableWord, decodeLanes_lanesOf]

/-- With no time passing, a W-bit TICKS stays as it is. -/
theorem ticksAfter_zero {cfg : Config} {t : Tick} (ht : t.toNat < 2 ^ cfg.tickBits) : ticksAfter cfg t 0 = t := by
  rw [ticksAfter, Nat.add_zero, Nat.mod_eq_of_lt ht, BitVec.ofNat_toNat, BitVec.setWidth_eq]

/-- Taking the write that `withFetchWord` has placed gives the state back. -/
theorem takeArrival_withFetchWord {s : State} (ht : s.ticks.toNat < 2 ^ s.cfg.tickBits) (nbits w : Nat) :
    takeArrival 0 s.arrivals (s.withFetchWord nbits w) = s := by
  change { s with ticks := ticksAfter s.cfg s.ticks 0 } = s
  rw [ticksAfter_zero ht]

/-- Settles O45: the placed write is the next arrival, no time passes before it, and it decodes to the
command of its word. -/
theorem fetchWordRunsNext : Obligations.FetchWordRunsNext := by
  intro s w hw ht _
  refine ⟨_, decodeTableWord_32 w, ?_⟩
  rw [step_operation (s := s.withFetchWord 32 w) hw rfl, takeArrival_withFetchWord ht]
  exact performStimulus_of_ok (decodeStimulus_commandWrite s.cfg s.ticks _)

end Sys2Proof.Machine
end

section
/-! PROOFS. Edge Capture (40_capture.md): the whole effect of EDGE and of TAKE (R122, R129), the first edges
after reset and TAKE (R125), the measured interval (R123, R124), both orders of an edge and a TAKE (R130,
R131), and the report of a dropped interval (R127). -/

namespace Sys2Proof.Machine

/-! ### EDGE in each of its cases -/

theorem exec_edge {s : State} (h : s.cfg.wf = true) (now : Tick) :
    exec (.edge now) s = .next (captureEdge now s) := exec_of_wf (.edge now) h

theorem exec_take {s : State} (h : s.cfg.wf = true) : exec .take s = .next (exchangeBuffer s) :=
  exec_of_wf .take h

/-- An interval is given by its number of microseconds. -/
theorem eq_ofNat_of_toNat_eq {v : Interval} {n : Nat} (h : v.toNat = n) : v = BitVec.ofNat 32 n := by
  rw [← h, BitVec.ofNat_toNat, BitVec.setWidth_eq]

theorem setBaseline_of_prevValid {s : State} (h : s.prevValid = true) (now : Tick) :
    setBaseline now s = { s with prevTime := now } := by
  rw [setBaseline, ← h]

/-- Without a baseline an edge only sets it (40_capture.md R125). -/
theorem captureEdge_of_not_prevValid {s : State} (h : s.prevValid = false) (now : Tick) :
    captureEdge now s = setBaseline now s := if_neg (Bool.eq_false_iff.1 h)

/-- With a full buffer an interval below MAX_GAP sets OVF and is lost (40_capture.md R127). -/
theorem captureEdge_of_full {s : State} {now : Tick} (hv : s.prevValid = true)
    (hgap : (tickDelta s.cfg now s.prevTime).toNat < s.cfg.maxGap) (hfull : s.cfg.nBuf ≤ s.cnt) :
    captureEdge now s = setBaseline now (setOverflow s) := by
  rw [captureEdge, if_pos hv, recordInterval, if_pos hgap, if_neg (Nat.not_lt.2 hfull)]

/-- With room in the buffer an edge appends its interval below MAX_GAP and discards it otherwise, moves the
baseline, and changes nothing else (40_capture.md R124, R126). -/
theorem captureEdge_of_room {s : State} {now : Tick} {delta : Nat} (hv : s.prevValid = true)
    (hroom : s.cnt < s.cfg.nBuf) (hdelta : (tickDelta s.cfg now s.prevTime).toNat = delta) :
    captureEdge now s = { s with
      buf := if delta < s.cfg.maxGap then s.buf ++ [BitVec.ofNat 32 delta] else s.buf
      prevTime := now } := by
  rw [captureEdge, if_pos hv, recordInterval, if_pos hroom, hdelta, ← eq_ofNat_of_toNat_eq hdelta]
  split_ifs
  · exact setBaseline_of_prevValid (s := appendInterval _ s) hv now
  · exact setBaseline_of_prevValid hv now

theorem captureEdge_prevValid (now : Tick) (s : State) : (captureEdge now s).prevValid = true := by
  rw [(captureEdge_writes now s).1]

theorem captureEdge_prevTime (now : Tick) (s : State) : (captureEdge now s).prevTime = now := by
  unfold captureEdge
  split_ifs <;> rfl

/-- An idle gap is never appended, with a baseline or without (40_capture.md R124). -/
theorem captureEdge_buf_of_idle {s : State} {now : Tick}
    (h : s.cfg.maxGap ≤ (tickDelta s.cfg now s.prevTime).toNat) : (captureEdge now s).buf = s.buf := by
  rcases captureEdge_cases now s with ⟨_, e⟩ | ⟨_, _, e⟩ | ⟨_, _, _, e⟩ | ⟨_, hgap, _, _⟩
  · rw [e, setBaseline_buf]
  · rw [e, setBaseline_buf]
  · rw [e, setBaseline_buf, setOverflow_buf]
  · exact absurd hgap (Nat.not_lt.2 h)

/-! ### The effects of EDGE and TAKE -/

/-- Settles O3: the cases of `captureEdge_cases` are the branches of R122, `tickDelta_toNat` is its delta. -/
theorem edgeEffect : Obligations.EdgeEffect := by
  intro s now hw delta
  have hdelta : (tickDelta s.cfg now s.prevTime).toNat = delta := tickDelta_toNat hw now s.prevTime
  rw [exec_edge hw]
  congr 1
  rcases captureEdge_cases now s with ⟨hv, e⟩ | ⟨hv, hgap, e⟩ | ⟨hv, hgap, hfull, e⟩ | ⟨hv, hgap, hroom, e⟩
  · rw [e, if_pos hv, setBaseline]
  · rw [e, if_neg (by simp [hv]), if_pos (hdelta ▸ hgap), setBaseline_of_prevValid hv]
  · rw [e, if_neg (by simp [hv]), if_neg (Nat.not_le.2 (hdelta ▸ hgap)), if_pos (show _ ≤ s.buf.length from hfull)]
    exact setBaseline_of_prevValid (s := setOverflow s) hv now
  · rw [e, if_neg (by simp [hv]), if_neg (Nat.not_le.2 (hdelta ▸ hgap)), 
      if_neg (show ¬ _ ≤ s.buf.length from Nat.not_le.2 hroom), ← eq_ofNat_of_toNat_eq hdelta]
    exact setBaseline_of_prevValid (s := appendInterval _ s) hv now

/-- Settles O4: the baseline moves in every case of `captureEdge`, and an idle gap leaves BUF. -/
theorem edgeAlwaysMovesBaseline : Obligations.EdgeAlwaysMovesBaseline := fun s now hw =>
  ⟨captureEdge now s, exec_edge hw now, captureEdge_prevValid now s, captureEdge_prevTime now s,
    fun hidle => captureEdge_buf_of_idle (by rwa [tickDelta_toNat hw])⟩

/-- Settles O7: EDGE answers a next state, and the fault bits are not among its writes. -/
theorem edgeEnabledInEveryState : Obligations.EdgeEnabledInEveryState := by
  intro s now hw
  refine ⟨captureEdge now s, exec_edge hw now, ?_, ?_⟩
  · rw [(captureEdge_writes now s).1]
  · rw [(captureEdge_writes now s).1]

/-- Settles O8: TAKE is the exchange of the buffer. -/
theorem takeEffect : Obligations.TakeEffect := fun _ hw => exec_take hw

/-! ### The edges after reset and TAKE -/

/-- A buffer that reset or a TAKE has left is empty, and has no baseline yet (40_capture.md R125). -/
theorem fresh_after_reset_or_take {s : State}
    (h : (∃ k arrivals lastRead, s = { State.resetWith s.cfg k with arrivals := arrivals, rdData := lastRead })
      ∨ ∃ r, exec .take r = .next s) : s.prevValid = false ∧ s.buf = [] := by
  rcases h with ⟨k, arrivals, lastRead, hs⟩ | ⟨r, hr⟩
  · exact ⟨congrArg State.prevValid hs, congrArg State.buf hs⟩
  · obtain ⟨_, rfl⟩ := exec_next hr
    exact ⟨rfl, rfl⟩

/-- Settles O5: the first edge sets the baseline of an empty buffer, so the second finds room for the
interval between the two. -/
theorem firstEdgeAppendsNothing : Obligations.FirstEdgeAppendsNothing := by
  intro s a b hw hfrom delta
  obtain ⟨hv, hbuf⟩ := fresh_after_reset_or_take hfrom
  have hroom : (setBaseline a s).cnt < s.cfg.nBuf := by
    have hnBuf := (wf_nBuf hw).1
    rw [State.cnt, setBaseline_buf, hbuf, List.length_nil]
    omega
  refine ⟨setBaseline a s, captureEdge b (setBaseline a s), ?_, hbuf, rfl, rfl, exec_edge (s := setBaseline a s) hw b, ?_⟩
  · rw [exec_edge hw, captureEdge_of_not_prevValid hv]
  · have hdelta : (tickDelta s.cfg b a).toNat = delta := tickDelta_toNat hw b a
    rw [captureEdge_of_room (s := setBaseline a s) rfl hroom hdelta]
    simp only [setBaseline_cfg, setBaseline_buf, hbuf, List.nil_append]

/-! ### Elapsed time -/

/-- Between TICKS and TICKS `e` microseconds later lie e mod 2^W (70_reset_and_hazards.md R278). -/
theorem tickDelta_ticksAfter_toNat {cfg : Config} (h : cfg.wf = true) (t : Tick) (e : Nat) :
    (tickDelta cfg (ticksAfter cfg t e) t).toNat = e % 2 ^ cfg.tickBits := by
  have hperiod : ((((t.toNat + e) % 2 ^ cfg.tickBits : Nat) : Int) - t.toNat) % (2 ^ cfg.tickBits : Int)
      = ((e % 2 ^ cfg.tickBits : Nat) : Int) := by
    push_cast
    rw [Int.emod_sub_emod, add_sub_cancel_left]
  rw [tickDelta_toNat h, ticksAfter_toNat h, hperiod, Int.toNat_natCast]

/-- Settles O6: the edge samples TICKS after the arrival's `e` microseconds, and the buffer has room. -/
theorem edgeMeasuresElapsedMicroseconds : Obligations.EdgeMeasuresElapsedMicroseconds := by
  intro s e rest hw _ hv htime hroom hp now
  have hdelta : (tickDelta s.cfg now s.prevTime).toNat = e % 2 ^ s.cfg.tickBits := by
    rw [htime]
    exact tickDelta_ticksAfter_toNat hw s.ticks e
  have hedge : step s = .next (captureEdge now (takeArrival e rest s)) :=
    (step_operation hw hp).trans ((performStimulus_of_ok rfl).trans (exec_edge (s := takeArrival e rest s) hw now))
  rw [hedge, captureEdge_of_room (s := takeArrival e rest s) hv hroom hdelta]
  rfl

/-! ### An edge and a TAKE -/

/-- Settles O9: TAKE moves into SNAP whatever the edge left in BUF, and leaves no baseline, so an edge after
it only sets one. -/
theorem edgeAndTakeSerialise : Obligations.EdgeAndTakeSerialise := by
  intro s now hw
  refine ⟨⟨captureEdge now s, exchangeBuffer (captureEdge now s), exec_edge hw now, exec_take ?_, rfl, rfl, rfl, rfl⟩,
    exchangeBuffer s, setBaseline now (exchangeBuffer s), exec_take hw, ?_, rfl, rfl, rfl, rfl, rfl⟩
  · rwa [captureEdge_cfg]
  · rw [exec_edge (s := exchangeBuffer s) hw, captureEdge_of_not_prevValid rfl]

/-- Settles O10: the full buffer makes the edge set OVF, which the TAKE exchanges into SNAP_OVF. -/
theorem overflowIsReported : Obligations.OverflowIsReported := by
  intro s now hw hv hfull hgap
  have hdrop : captureEdge now s = setBaseline now (setOverflow s) :=
    captureEdge_of_full hv (by rwa [tickDelta_toNat hw]) hfull.ge
  refine ⟨setBaseline now (setOverflow s), exchangeBuffer (setBaseline now (setOverflow s)), ?_, rfl, rfl, rfl,
    exec_take hw, rfl, rfl, rfl⟩
  rw [exec_edge hw, hdrop]

end Sys2Proof.Machine
end

section
/-! PROOFS. The NEC Decoder (41_decoder.md): MATCH and the windows of the reference values (R150 to R152), what
DECODE answers on a frame and at the first failing check (R154 to R164), what it reads (R153, R156), and the
nominal frames. -/

namespace Sys2Proof.Machine

/-! ### MATCH and the reading of a space -/

/-- Settles O11: `matchNominal_iff`, whose right side is the open window on integers. -/
theorem matchIsOpenWindow : Obligations.MatchIsOpenWindow := matchNominal_iff

/-- The window without subtraction. -/
theorem inWindow_iff (cfg : Config) (v t : Nat) : inWindow cfg v t ↔ t < v + cfg.tol ∧ v < t + cfg.tol := by
  rw [inWindow]
  omega

/-- Settles O12: each window is the reference tolerance around its nominal. -/
theorem referenceWindows : Obligations.ReferenceWindows := by
  intro v
  simp only [matchNominal_iff, inWindow_iff, Config.reference]
  omega

/-- A space that matches One Space is a 1, whether or not it matches Zero Space too (41_decoder.md R152). -/
theorem readSpace_of_one {cfg : Config} (h : cfg.wf = true) {v : Interval}
    (h1 : matchNominal cfg v cfg.oneSpace = true) : readSpace cfg v = some true := by
  rw [readSpace_eq h, if_pos h1]

theorem readSpace_of_not_one {cfg : Config} (h : cfg.wf = true) {v : Interval}
    (h1 : ¬ matchNominal cfg v cfg.oneSpace = true) :
    readSpace cfg v = if matchNominal cfg v cfg.zeroSpace then some false else none := by
  rw [readSpace_eq h, if_neg h1]

/-- Settles O13: One Space is tested first, and the bounds are those of `referenceWindows`. -/
theorem overlappingSpacesReadAsOne : Obligations.OverlappingSpacesReadAsOne := by
  refine ⟨fun _ _ h h1 => readSpace_of_one h h1, fun v => ?_⟩
  have hw : Config.reference.wf = true := by decide
  obtain ⟨_, _, _, hone, hzero⟩ := referenceWindows v
  refine ⟨fun hv => ⟨hone.2 (by omega), hzero.2 hv.2⟩, fun hv => ?_, fun hv => readSpace_of_one hw (hone.2 hv),
    fun hv => ?_⟩
  · rw [readSpace_of_not_one hw (by rw [hone]; omega), if_pos (hzero.2 (by omega))]
  · rw [readSpace_of_not_one hw (by rw [hone]; omega), if_neg (by rw [hzero]; omega)]

/-! ### The loop in the terms of the claims -/

/-- What the 32 rounds of DECODE can answer: the code of 32 good pairs, or the first bad mark or space
(41_decoder.md R159 to R161). -/
theorem loop_cases {cfg : Config} (h : cfg.wf = true) (p : List Interval) :
    (∃ c, decodeBits cfg p 32 2 0#32 = .ok c ∧ (∀ j < 32, markOk cfg p j ∧ spaceOk cfg p j) ∧
      ∀ j < 32, (c.getLsbD (31 - j) = true ↔ inWindow cfg (intervalAt p (3 + 2 * j)) cfg.oneSpace)) ∨
    ∃ j < 32, (∀ k < j, markOk cfg p k ∧ spaceOk cfg p k) ∧
      ((¬ markOk cfg p j ∧ decodeBits cfg p 32 2 0#32 = .error ⟨.bitMarkMismatch, 2 + 2 * j⟩) ∨
        (markOk cfg p j ∧ ¬ spaceOk cfg p j ∧
          decodeBits cfg p 32 2 0#32 = .error ⟨.bitSpaceMismatch, 3 + 2 * j⟩)) := by
  rcases decodeBits_cases h p 32 2 0#32 with ⟨c, hloop, hpairs, hbits⟩ | hfail
  · refine .inl ⟨c, hloop, hpairs, fun j hj => ?_⟩
    have hpos : 32 - 1 - (31 - j) = j := by omega
    rw [hbits (31 - j) (by omega), if_pos (by omega), hpos]
  · exact .inr hfail

/-- When every pair is good, the code is the one whose bits the spaces give. -/
theorem loop_of_bits {cfg : Config} (h : cfg.wf = true) {p : List Interval} {c : Word}
    (hpairs : ∀ j < 32, markOk cfg p j ∧ spaceOk cfg p j)
    (hbits : ∀ j < 32, (c.getLsbD (31 - j) = true ↔ inWindow cfg (intervalAt p (3 + 2 * j)) cfg.oneSpace)) :
    decodeBits cfg p 32 2 0#32 = .ok c := by
  rcases loop_cases h p with ⟨d, hloop, _, hd⟩ | ⟨j, hj, _, ⟨hm, _⟩ | ⟨_, hs, _⟩⟩
  · have hdc : d = c := by
      refine BitVec.eq_of_getLsbD_eq fun m hm => ?_
      have hpos : 31 - (31 - m) = m := by omega
      rw [Bool.eq_iff_iff, ← hpos, hd (31 - m) (by omega), hbits (31 - m) (by omega)]
    rw [hloop, hdc]
  · exact absurd (hpairs j hj).1 hm
  · exact absurd (hpairs j hj).2 hs

/-- The first number without a property is one alone. -/
theorem first_failing_unique {P : Nat → Prop} {j k : Nat} (hj : ∀ m < j, P m) (hj' : ¬ P j)
    (hk : ∀ m < k, P m) (hk' : ¬ P k) : j = k :=
  le_antisymm (Nat.not_lt.1 fun hlt => hk' (hj k hlt)) (Nat.not_lt.1 fun hlt => hj' (hk j hlt))

theorem loop_of_bad_mark {cfg : Config} (h : cfg.wf = true) {p : List Interval} {j : Nat} (hj : j < 32)
    (hb : ∀ k < j, markOk cfg p k ∧ spaceOk cfg p k) (hm : ¬ markOk cfg p j) :
    decodeBits cfg p 32 2 0#32 = .error ⟨.bitMarkMismatch, 2 + 2 * j⟩ := by
  rcases loop_cases h p with ⟨_, _, hpairs, _⟩ | ⟨k, _, hbefore, ⟨hkm, e⟩ | ⟨hkm, hks, _⟩⟩
  · exact absurd (hpairs j hj).1 hm
  · rwa [first_failing_unique hb (fun hp => hm hp.1) hbefore fun hp => hkm hp.1]
  · exact absurd (first_failing_unique hb (fun hp => hm hp.1) hbefore (fun hp => hks hp.2) ▸ hkm) hm

theorem loop_of_bad_space {cfg : Config} (h : cfg.wf = true) {p : List Interval} {j : Nat} (hj : j < 32)
    (hb : ∀ k < j, markOk cfg p k ∧ spaceOk cfg p k) (hm : markOk cfg p j) (hs : ¬ spaceOk cfg p j) :
    decodeBits cfg p 32 2 0#32 = .error ⟨.bitSpaceMismatch, 3 + 2 * j⟩ := by
  rcases loop_cases h p with ⟨_, _, hpairs, _⟩ | ⟨k, _, hbefore, ⟨hkm, _⟩ | ⟨_, hks, e⟩⟩
  · exact absurd (hpairs j hj).2 hs
  · exact absurd (first_failing_unique hb (fun hp => hs hp.2) hbefore (fun hp => hkm hp.1) ▸ hm) hkm
  · rwa [first_failing_unique hb (fun hp => hs hp.2) hbefore fun hp => hks hp.2]

/-! ### The verdict of each check -/

theorem decodeFn_of_short {cfg : Config} {p : List Interval} (h : p.length < cfg.minPulses) :
    decodeFn cfg p = .error ⟨.insufficientPulses, 0⟩ := if_pos h

theorem header_match_iff (cfg : Config) (p : List Interval) :
    (matchNominal cfg (pulseAt p 0) cfg.hdrMark && matchNominal cfg (pulseAt p 1) cfg.hdrSpace) = true ↔
      headerOk cfg p := by
  rw [Bool.and_eq_true, matchNominal_iff, matchNominal_iff]
  rfl

theorem stop_match_iff {cfg : Config} (h : cfg.wf = true) (p : List Interval) :
    matchNominal cfg (pulseAt p cfg.trailerIndex) cfg.bitMark = true ↔ stopOk cfg p := by
  rw [matchNominal_iff, (wf_fixed h).2.1]
  rfl

section
variable {cfg : Config} {p : List Interval} (hlen : cfg.minPulses ≤ p.length)
include hlen

theorem decodeFn_of_bad_header (hh : ¬ headerOk cfg p) : decodeFn cfg p = .error ⟨.invalidHeader, 0⟩ := by
  rw [decodeFn, if_neg (Nat.not_lt.2 hlen), if_neg (by rwa [header_match_iff])]

theorem decodeFn_of_loop_error (hh : headerOk cfg p) {f : Failure} (hloop : decodeBits cfg p 32 2 0#32 = .error f) :
    decodeFn cfg p = .error f := by
  rw [decodeFn, if_neg (Nat.not_lt.2 hlen), if_pos ((header_match_iff cfg p).2 hh), hloop]

theorem decodeFn_of_loop_ok (h : cfg.wf = true) (hh : headerOk cfg p) {c : Word}
    (hloop : decodeBits cfg p 32 2 0#32 = .ok c) (hs : stopOk cfg p) : decodeFn cfg p = .ok c := by
  rw [decodeFn, if_neg (Nat.not_lt.2 hlen), if_pos ((header_match_iff cfg p).2 hh), hloop]
  exact if_pos ((stop_match_iff h p).2 hs)

theorem decodeFn_of_bad_stop (h : cfg.wf = true) (hh : headerOk cfg p) {c : Word}
    (hloop : decodeBits cfg p 32 2 0#32 = .ok c) (hs : ¬ stopOk cfg p) :
    decodeFn cfg p = .error ⟨.invalidTrailer, 0⟩ := by
  rw [decodeFn, if_neg (Nat.not_lt.2 hlen), if_pos ((header_match_iff cfg p).2 hh), hloop]
  exact if_neg (by rwa [stop_match_iff h])

end

/-! ### Frames and first failures decide the verdict -/

/-- On a frame the verdict is the frame's code (41_decoder.md R161, R163). -/
theorem decodeFn_of_carriesCode {cfg : Config} (h : cfg.wf = true) {p : List Interval} {c : Word}
    (hc : CarriesCode cfg p c) : decodeFn cfg p = .ok c :=
  decodeFn_of_loop_ok hc.enough h hc.header
    (loop_of_bits h (fun j hj => ⟨hc.marks j hj, hc.spaces j hj⟩) hc.bits) hc.stop

/-- The first failing check gives the verdict its reason and its index (41_decoder.md R164, 60_exceptions.md R231). -/
theorem decodeFn_of_firstFailure {cfg : Config} (h : cfg.wf = true) {p : List Interval} {o : DecodeOutcome} {i : Nat}
    (hf : FirstFailure cfg p o i) : ∃ r, outcomeOf r = o ∧ decodeFn cfg p = .error ⟨r, i⟩ := by
  cases hf with
  | length hlen => exact ⟨_, rfl, decodeFn_of_short hlen⟩
  | header hlen hh => exact ⟨_, rfl, decodeFn_of_bad_header hlen hh⟩
  | mark j hlen hh hj hb hm => exact ⟨_, rfl, decodeFn_of_loop_error hlen hh (loop_of_bad_mark h hj hb hm)⟩
  | space j hlen hh hj hb hm hs =>
    exact ⟨_, rfl, decodeFn_of_loop_error hlen hh (loop_of_bad_space h hj hb hm hs)⟩
  | trailer hlen hh hb hs =>
    rcases loop_cases h p with ⟨c, hloop, _⟩ | ⟨j, hj, _, ⟨hm, _⟩ | ⟨_, hsp, _⟩⟩
    · exact ⟨_, rfl, decodeFn_of_bad_stop hlen h hh hloop hs⟩
    · exact absurd (hb j hj).1 hm
    · exact absurd (hb j hj).2 hsp

/-- Every snapshot is a frame of some code or has a first failing check. -/
theorem carriesCode_or_firstFailure {cfg : Config} (h : cfg.wf = true) (p : List Interval) :
    (∃ c, CarriesCode cfg p c) ∨ ∃ o i, FirstFailure cfg p o i := by
  by_cases hlen : cfg.minPulses ≤ p.length
  case neg => exact .inr ⟨_, _, .length (Nat.not_le.1 hlen)⟩
  by_cases hh : headerOk cfg p
  case neg => exact .inr ⟨_, _, .header hlen hh⟩
  rcases loop_cases h p with ⟨c, _, hpairs, hbits⟩ | ⟨j, hj, hb, ⟨hm, _⟩ | ⟨hm, hs, _⟩⟩
  · by_cases hs : stopOk cfg p
    · exact .inl ⟨c, hlen, hh, fun j hj => (hpairs j hj).1, fun j hj => (hpairs j hj).2, hs, hbits⟩
    · exact .inr ⟨_, _, .trailer hlen hh hpairs hs⟩
  · exact .inr ⟨_, _, .mark j hlen hh hj hb hm⟩
  · exact .inr ⟨_, _, .space j hlen hh hj hb hm hs⟩

/-- No frame has a failing check: the verdict would be both. -/
theorem CarriesCode.not_firstFailure {cfg : Config} (h : cfg.wf = true) {p : List Interval} {c : Word}
    (hc : CarriesCode cfg p c) {o : DecodeOutcome} {i : Nat} : ¬ FirstFailure cfg p o i := by
  intro hf
  obtain ⟨r, _, he⟩ := decodeFn_of_firstFailure h hf
  rw [decodeFn_of_carriesCode h hc] at he
  cases he

theorem outcomeOf_isFailure (r : FailReason) : outcomeOf r ≠ .none ∧ outcomeOf r ≠ .ok := by
  cases r <;> decide

/-! ### DECODE on frames and at the first failing check -/

theorem exec_decode {s : State} (h : s.cfg.wf = true) :
    exec .decode s = .next (reportVerdict (decodeFn s.cfg s.snap) s) := exec_of_wf .decode h

theorem exec_decode_of_carriesCode {s : State} (h : s.cfg.wf = true) {c : Word} (hc : CarriesCode s.cfg s.snap c) :
    exec .decode s = .next { s with outcome := .ok, failIndex := 0#7, code := c } := by
  rw [exec_decode h, decodeFn_of_carriesCode h hc]
  rfl

/-- Settles O15: the first failing check is the verdict's reason, by `decodeFn_of_firstFailure`. -/
theorem decodeReportsFirstFailure : Obligations.DecodeReportsFirstFailure := by
  intro s o i h hf
  obtain ⟨r, rfl, hv⟩ := decodeFn_of_firstFailure h hf
  rw [exec_decode h, hv]
  rfl

/-- Settles O14: a snapshot that is no frame has a first failing check, whose OUTCOME is a failure. -/
theorem decodeSucceedsExactlyOnFrames : Obligations.DecodeSucceedsExactlyOnFrames := by
  refine fun s h => ⟨fun c hc => exec_decode_of_carriesCode h hc, fun hno => ?_⟩
  obtain ⟨o, i, hf⟩ := (carriesCode_or_firstFailure h s.snap).resolve_left hno
  obtain ⟨r, rfl, _⟩ := decodeFn_of_firstFailure h hf
  exact ⟨_, _, (outcomeOf_isFailure r).1, (outcomeOf_isFailure r).2, decodeReportsFirstFailure s _ i h hf⟩

/-- FAIL_INDEX holds the index of every first failing check, which is at most 65 (10_state.md R38). -/
theorem FirstFailure.index_lt {cfg : Config} {p : List Interval} {o : DecodeOutcome} {i : Nat}
    (hf : FirstFailure cfg p o i) : i < 2 ^ 7 := by
  cases hf <;> omega

/-- Settles O16: `carriesCode_or_firstFailure` with what DECODE writes in each case. -/
theorem frameOrFirstFailure : Obligations.FrameOrFirstFailure := by
  refine fun s h => ⟨?_, fun ⟨⟨_, hc⟩, _, _, hf⟩ => hc.not_firstFailure h hf⟩
  rcases carriesCode_or_firstFailure h s.snap with ⟨c, hc⟩ | ⟨o, i, hf⟩
  · exact .inl ⟨c, hc, exec_decode_of_carriesCode h hc⟩
  · refine .inr ⟨o, BitVec.ofNat 7 i, ?_, decodeReportsFirstFailure s o i h hf⟩
    rwa [BitVec.toNat_ofNat, Nat.mod_eq_of_lt hf.index_lt]

/-- Settles O17: MIN_PULSES is at least 68, so either bound fails the first check. -/
theorem shortSnapshotIsInsufficient : Obligations.ShortSnapshotIsInsufficient := by
  intro s h hshort
  have hmin := wf_minPulses h
  exact decodeReportsFirstFailure s _ 0 h (.length (by omega))

/-! ### What DECODE reads -/

/-- The loop reads the two intervals of each round and no other (41_decoder.md R156). -/
theorem decodeBits_congr {cfg : Config} {p q : List Interval} {n i : Nat} (code : Word)
    (h : ∀ k < i + 2 * n, pulseAt p k = pulseAt q k) : decodeBits cfg p n i code = decodeBits cfg q n i code := by
  induction n generalizing i code with
  | zero => rfl
  | succ n ih =>
    rw [decodeBits_succ, decodeBits_succ, h i (by omega), h (i + 1) (by omega)]
    have hrest : ∀ c, decodeBits cfg p n (i + 2) c = decodeBits cfg q n (i + 2) c :=
      fun c => ih c fun k hk => h k (by omega)
    simp only [hrest]

/-- The verdict on a long enough snapshot is fixed by its indices 0 to 66 (41_decoder.md R156). -/
theorem decodeFn_congr {cfg : Config} (hw : cfg.wf = true) {p q : List Interval} (hp : cfg.minPulses ≤ p.length)
    (hq : cfg.minPulses ≤ q.length) (h : ∀ k < 67, pulseAt p k = pulseAt q k) :
    decodeFn cfg p = decodeFn cfg q := by
  have htrailer : cfg.trailerIndex = 66 := (wf_fixed hw).2.1
  rw [decodeFn, decodeFn, if_neg (Nat.not_lt.2 hp), if_neg (Nat.not_lt.2 hq), h 0 (by omega), h 1 (by omega),
    decodeBits_congr 0#32 fun k hk => h k (by omega), h cfg.trailerIndex (by omega)]

theorem pulseAt_eq_of_take_eq {p q : List Interval} {n : Nat} (h : p.take n = q.take n) {k : Nat} (hk : k < n) :
    pulseAt p k = pulseAt q k := by
  rw [pulseAt, pulseAt, List.getD_eq_getElem?_getD, List.getD_eq_getElem?_getD, ← List.getElem?_take_of_lt hk, h,
    List.getElem?_take_of_lt hk]

/-- Settles O18: the two snapshots have one verdict, by `decodeFn_congr`. -/
theorem decodeIgnoresBeyondTrailer : Obligations.DecodeIgnoresBeyondTrailer := by
  intro s p q h hp hq hpq
  have hverdict : decodeFn s.cfg p = decodeFn s.cfg q :=
    decodeFn_congr h hp hq fun k hk => pulseAt_eq_of_take_eq hpq hk
  rw [exec_decode (s := { s with snap := p }) h, exec_decode (s := { s with snap := q }) h]
  simp only [hverdict]
  cases decodeFn s.cfg q with
  | ok c => exact ⟨_, _, _, rfl, rfl⟩
  | error f => exact ⟨_, _, _, rfl, rfl⟩

/-- Settles O19: the configuration and the snapshot fix what DECODE writes, and it writes neither. -/
theorem decodeReadsSnapshotAlone : Obligations.DecodeReadsSnapshotAlone := by
  intro s h
  obtain ⟨o, i, c, hwrites⟩ := decodeSnapshot_writes s.cfg s.snap
  have hexec : ∀ r : State, r.cfg = s.cfg → r.snap = s.snap → exec .decode r = .next (writeDecode o i c r) :=
    fun r hc hp => by rw [exec_of_wf .decode (hc ▸ h), ← hwrites r hc hp, effectOf]
  exact ⟨o, i, c, fun r hc hp => ⟨hexec r hc hp, hexec (writeDecode o i c r) hc hp⟩⟩

/-! ### Nominal frames -/

/-- Writing two elements for each one of a list puts them at twice its index and behind. -/
theorem getElem?_flatMap_pair {α β : Type} (f g : α → β) (l : List α) (j : Nat) :
    (l.flatMap fun a => [f a, g a])[2 * j]? = l[j]?.map f
      ∧ (l.flatMap fun a => [f a, g a])[2 * j + 1]? = l[j]?.map g := by
  induction l generalizing j with
  | nil => simp
  | cons a l ih =>
    cases j with
    | zero => simp
    | succ j => simpa [Nat.mul_add] using ih j

/-- The 32 marks and spaces of the nominal frame of a code, the most significant bit first. -/
def nominalPairs (c : Word) : List Interval :=
  (List.range 32).flatMap fun j => [560#32, if c.getLsbD (31 - j) then 1600#32 else 560#32]

theorem nominalFrame_append_eq (c : Word) (tail : List Interval) :
    nominalFrame c ++ tail = 9000#32 :: 4500#32 :: (nominalPairs c ++ 560#32 :: 560#32 :: tail) := by
  simp [nominalFrame, nominalPairs]

theorem nominalPairs_length (c : Word) : (nominalPairs c).length = 64 := by
  simp [nominalPairs]

theorem nominalPairs_getElem? (c : Word) {j : Nat} (hj : j < 32) :
    (nominalPairs c)[2 * j]? = some 560#32
      ∧ (nominalPairs c)[2 * j + 1]? = some (if c.getLsbD (31 - j) then 1600#32 else 560#32) := by
  obtain ⟨hmark, hspace⟩ := getElem?_flatMap_pair (fun _ => 560#32)
    (fun j => if c.getLsbD (31 - j) then 1600#32 else 560#32) (List.range 32) j
  rw [List.getElem?_range hj] at hmark hspace
  exact ⟨hmark, hspace⟩

/-- After the header of a nominal frame, index 2 + k is index k of the pairs. -/
theorem intervalAt_nominalFrame {c : Word} {tail : List Interval} {k : Nat} {v : Interval}
    (h : (nominalPairs c)[k]? = some v) : intervalAt (nominalFrame c ++ tail) (2 + k) = v.toNat := by
  have hk : k < (nominalPairs c).length := (List.getElem?_eq_some_iff.1 h).1
  rw [nominalFrame_append_eq, intervalAt, List.getD_eq_getElem?_getD, Nat.add_comm, List.getElem?_cons_succ,
    List.getElem?_cons_succ, List.getElem?_append_left hk, h, Option.getD_some]

theorem intervalAt_nominalFrame_mark (c : Word) (tail : List Interval) {j : Nat} (hj : j < 32) :
    intervalAt (nominalFrame c ++ tail) (2 + 2 * j) = 560 :=
  intervalAt_nominalFrame (nominalPairs_getElem? c hj).1

theorem intervalAt_nominalFrame_space (c : Word) (tail : List Interval) {j : Nat} (hj : j < 32) :
    intervalAt (nominalFrame c ++ tail) (3 + 2 * j) = if c.getLsbD (31 - j) then 1600 else 560 := by
  have hindex : 3 + 2 * j = 2 + (2 * j + 1) := by omega
  rw [hindex, intervalAt_nominalFrame (nominalPairs_getElem? c hj).2]
  split_ifs <;> rfl

/-- The stop burst of a nominal frame, behind the header and the 64 intervals of the pairs. -/
theorem intervalAt_nominalFrame_stop (c : Word) (tail : List Interval) :
    intervalAt (nominalFrame c ++ tail) 66 = 560 := by
  have hstop : (nominalPairs c ++ 560#32 :: 560#32 :: tail)[64]? = some 560#32 := by
    rw [List.getElem?_append_right (nominalPairs_length c).le, nominalPairs_length]
    rfl
  rw [nominalFrame_append_eq, intervalAt, List.getD_eq_getElem?_getD, List.getElem?_cons_succ,
    List.getElem?_cons_succ, hstop]
  rfl

/-- With the reference timing a nominal frame passes every check, and a space of 1600 alone matches One Space
(41_decoder.md R152, R161). -/
theorem carriesCode_nominalFrame (table : List KeyEntry) (base : Nat) (c : Word) (tail : List Interval) :
    CarriesCode { Config.reference with keyTable := table, base := base } (nominalFrame c ++ tail) c where
  enough := by
    rw [nominalFrame_append_eq]
    simp only [List.length_cons, List.length_append, nominalPairs_length, Config.reference]
    omega
  header := by
    rw [nominalFrame_append_eq]
    simp [headerOk, inWindow_iff, intervalAt, Config.reference]
  marks j hj := by
    rw [markOk, intervalAt_nominalFrame_mark c tail hj]
    simp [inWindow_iff, Config.reference]
  spaces j hj := by
    rw [spaceOk, intervalAt_nominalFrame_space c tail hj]
    split_ifs
    · exact .inl (by simp [inWindow_iff, Config.reference])
    · exact .inr (by simp [inWindow_iff, Config.reference])
  stop := by
    rw [stopOk, intervalAt_nominalFrame_stop]
    simp [inWindow_iff, Config.reference]
  bits j hj := by
    rw [intervalAt_nominalFrame_space c tail hj]
    split_ifs with hbit <;> simp [hbit, inWindow_iff, Config.reference]

/-- Settles O20: the nominal frame is a frame of its code, whatever follows it. -/
theorem nominalFrameDecodesToItsCode : Obligations.NominalFrameDecodesToItsCode := by
  intro s c table base tail hcfg h hsnap
  refine exec_decode_of_carriesCode h ?_
  rw [hcfg, hsnap]
  exact carriesCode_nominalFrame table base c tail

end Sys2Proof.Machine
end

section
/-! PROOFS. The resolver (42_resolver.md): RESOLVE answers the first entry at the least distance, with that
distance unwrapped (R191, R192, R194), and on a table that meets the condition of log entry 15 this entry is "OK". -/

namespace Sys2Proof.Machine

/-! ### What RESOLVE answers -/

/-- RESOLVE writes the index and the distance of the entry that `IsNearest` names (42_resolver.md R191). -/
theorem exec_resolve_of_isNearest {s : State} (h : s.cfg.wf = true) {k : Nat} {e : KeyEntry}
    (hn : IsNearest s.cfg.keyTable s.code k e) :
    exec .resolve s = .next { s with key := BitVec.ofNat 16 k, dist := BitVec.ofNat 32 (keyDistance s.code e) } := by
  obtain ⟨f, hdist, hf⟩ := nearestKey_spec (wf_keyTable h).1 s.code
  have hindex := hf.index_unique hn
  have hentry : some f = some e := by rw [← hf.1, ← hn.1, hindex]
  rw [exec_of_wf .resolve h, effectOf, resolveCode, hindex, hdist, Option.some.inj hentry, writeMatch]

/-- Settles O21: the scan ends at a nearest entry, whose index is below 65536 (00_scope.md R8) and whose
distance is below 2^32, so KEY and DIST hold both whole. -/
theorem resolveFindsFirstNearest : Obligations.ResolveFindsFirstNearest := by
  intro s h
  obtain ⟨hne, hmax⟩ := wf_keyTable h
  obtain ⟨e, _, hnear⟩ := nearestKey_spec hne s.code
  have hindex := hnear.index_lt
  refine ⟨_, e, _, _, hnear, ?_, ?_, exec_resolve_of_isNearest h hnear⟩
  · rw [BitVec.toNat_ofNat, Nat.mod_eq_of_lt (by omega)]
  · rw [BitVec.toNat_ofNat, Nat.mod_eq_of_lt (keyDistance_lt s.code e)]

/-! ### The scenario of "OK" -/

/-- An entry is the nearest when every entry before it is farther and no entry behind it is nearer. -/
theorem isNearest_append_cons {before after : List KeyEntry} {code : Word} {e : KeyEntry}
    (hbefore : ∀ f ∈ before, keyDistance code e < keyDistance code f)
    (hafter : ∀ f ∈ after, keyDistance code e ≤ keyDistance code f) :
    IsNearest (before ++ e :: after) code before.length e := by
  refine ⟨by simp, fun j f hf => ?_⟩
  rcases Nat.lt_or_ge j before.length with hj | hj
  · rw [List.getElem?_append_left hj] at hf
    have hlt := hbefore f (List.mem_of_getElem? hf)
    exact ⟨hlt.le, fun _ => hlt⟩
  · rw [List.getElem?_append_right hj] at hf
    refine ⟨?_, fun hlt => absurd hlt (Nat.not_lt.2 hj)⟩
    rcases List.mem_cons.1 (List.mem_of_getElem? hf) with rfl | hmem
    · exact le_rfl
    · exact hafter f hmem

/-- Only an entry of the code itself is at distance 0. -/
theorem keyDistance_pos {code : Word} {e : KeyEntry} (h : e.code ≠ code) : 0 < keyDistance code e := by
  have hne := BitVec.toNat_ne_iff_ne.2 h
  rw [keyDistance]
  omega

/-- Only the codes 0x00FF38C5, 0x00FF38C6 and 0x00FF38C7 are at distance 1 or less from the middle one. -/
theorem one_lt_keyDistance_between {e : KeyEntry} (h5 : e.code ≠ 0x00FF38C5#32) (h6 : e.code ≠ 0x00FF38C6#32)
    (h7 : e.code ≠ 0x00FF38C7#32) : 1 < keyDistance 0x00FF38C6#32 e := by
  rw [← BitVec.toNat_ne_iff_ne, BitVec.toNat_ofNat] at h5 h6 h7
  rw [keyDistance, BitVec.toNat_ofNat]
  omega

/-- RESOLVE on a table in which an entry at distance `d` has only farther ones before it and none nearer behind. -/
theorem exec_resolve_of_append_cons {s : State} (h : s.cfg.wf = true) {before after : List KeyEntry} {e : KeyEntry}
    {d : Nat} (htable : s.cfg.keyTable = before ++ e :: after) (hd : keyDistance s.code e = d)
    (hbefore : ∀ f ∈ before, d < keyDistance s.code f) (hafter : ∀ f ∈ after, d ≤ keyDistance s.code f) :
    exec .resolve s = .next { s with key := BitVec.ofNat 16 before.length, dist := BitVec.ofNat 32 d } := by
  subst hd
  refine exec_resolve_of_isNearest h ?_
  rw [htable]
  exact isNearest_append_cons hbefore hafter

/-- Settles O22: for its own code "OK" is at distance 0 and every entry before it farther; for 0x00FF38C6 it is
at distance 1, every entry before it farther, and no entry at distance 0. -/
theorem okScenarioHolds : Obligations.OkScenarioHolds := by
  intro s before after h htable hbefore hmiddle
  rw [htable] at hmiddle
  refine ⟨fun hcode => ?_, fun hcode => ?_⟩
  · refine exec_resolve_of_append_cons h htable (by rw [hcode]; rfl) (fun f hf => ?_) (fun _ _ => Nat.zero_le _)
    rw [hcode]
    exact keyDistance_pos (hbefore f hf).2
  · refine exec_resolve_of_append_cons h htable (by rw [hcode]; rfl) (fun f hf => ?_) (fun f hf => ?_) <;> rw [hcode]
    · obtain ⟨h5, h7⟩ := hbefore f hf
      exact one_lt_keyDistance_between h5 (hmiddle f (by simp [hf])) h7
    · exact keyDistance_pos (hmiddle f (by simp [hf]))

end Sys2Proof.Machine
end

section
/-! PROOFS. Host access (43_host_access.md): the whole effect of a read and of a write (R210, R211, R215), the
SNAP window (R216), the commands that a write to CMD performs (R212 to R214), and at most one fault for each
operation (R217, 60_exceptions.md R241). -/

namespace Sys2Proof.Machine

/-! ### The numbers in the registers -/

/-- The fields of a register stand side by side: the upper one counts in units of the lower one's range. -/
theorem toNat_append_eq_add {m n : Nat} (x : BitVec m) (y : BitVec n) :
    (x ++ y).toNat = x.toNat * 2 ^ n + y.toNat := by
  rw [BitVec.toNat_append, ← Nat.shiftLeft_add_eq_or_of_lt y.isLt, Nat.shiftLeft_eq]

theorem statusWord_toNat (s : State) : (statusWord s).toNat =
    s.prevValid.toNat + 2 * s.ovf.toNat + 4 * s.snapOvf.toNat + 256 * s.faultCmd.toNat
      + 512 * s.faultBus.toNat := by
  simp only [statusWord, toNat_append_eq_add, BitVec.toNat_ofBool, BitVec.toNat_ofNat]
  omega

theorem outcomeBits_toNat (o : DecodeOutcome) : (outcomeBits o).toNat = outcomeNumber o := by
  cases o <;> rfl

theorem resultWord_toNat (s : State) :
    (resultWord s).toNat = outcomeNumber s.outcome + 256 * s.failIndex.toNat := by
  simp only [resultWord, toNat_append_eq_add, outcomeBits_toNat, BitVec.toNat_ofNat]
  omega

/-- N_BUF is at most 256 and K at most 65535 (00_scope.md R8), so INFO holds both whole. -/
theorem infoWord_toNat {cfg : Config} (h : cfg.wf = true) :
    (infoWord cfg).toNat = cfg.nBuf + 65536 * cfg.keyTable.length := by
  have hnBuf := (wf_nBuf h).2
  have hkeys := (wf_keyTable h).2
  rw [infoWord, toNat_append_eq_add, BitVec.toNat_ofNat, BitVec.toNat_ofNat, Config.keyCount,
    Nat.mod_eq_of_lt (by omega), Nat.mod_eq_of_lt (by omega)]
  omega

theorem toNat_zero_append (x : BitVec 16) : ((0#16 : BitVec 16) ++ x).toNat = x.toNat := by
  rw [toNat_append_eq_add, BitVec.toNat_ofNat, Nat.zero_mod, Nat.zero_mul, Nat.zero_add]

/-- A count of at most N_BUF fits the lower half of its register. -/
theorem countWord_toNat {cfg : Config} (h : cfg.wf = true) {n : Nat} (hn : n ≤ cfg.nBuf) :
    ((0#16 : BitVec 16) ++ BitVec.ofNat 16 n).toNat = n := by
  have hnBuf := (wf_nBuf h).2
  rw [toNat_zero_append, BitVec.toNat_ofNat, Nat.mod_eq_of_lt (by omega)]

theorem snapWord_toNat (p : List Interval) (k : Nat) : (snapWord p k).toNat = intervalAt p k := rfl

/-- From 0x400 on the window shows SNAP (10_state.md R47). -/
theorem windowNumber_of_snapWindow (s : State) {n : Nat} (h : 0x400 ≤ n) :
    windowNumber s n = intervalAt s.snap ((n - 0x400) / 4) := by
  have hne : ∀ c < 0x400, n ≠ c := fun c hc => by omega
  simp [windowNumber, hne]

/-- Every readable register holds the number that its bit fields give (10_state.md R48 to R56). -/
theorem regValue_toNat {s : State} (hw : s.cfg.wf = true) (hbuf : s.buf.length ≤ s.cfg.nBuf)
    (hsnap : s.snap.length ≤ s.cfg.nBuf) {off : Offset} {r : Reg} (hr : regAt s.cfg off = some r)
    (hcmd : r ≠ .cmd) : (regValue s r).toNat = windowNumber s off.toNat := by
  rw [regAt_eq] at hr
  split_ifs at hr with h0 h1 h2 h3 h4 h5 h6 h7 h8 hwin <;> obtain rfl := Option.some.inj hr
  · exact absurd rfl hcmd
  · subst h1; exact statusWord_toNat s
  · subst h2; exact countWord_toNat hw hbuf
  · subst h3; exact countWord_toNat hw hsnap
  · subst h4; exact resultWord_toNat s
  · subst h5; rfl
  · subst h6; exact toNat_zero_append s.key
  · subst h7; rfl
  · subst h8; exact infoWord_toNat hw
  · rw [windowNumber_of_snapWindow s hwin.1]; exact snapWord_toNat ..

/-! ### Reads -/

/-- A read that is not legal faults and returns 0 (43_host_access.md R210). -/
theorem readAccess_of_illegal {off : Offset} {width : Nat} {s : State}
    (h : width ≠ 4 ∨ off.toNat % 4 ≠ 0 ∨ ¬ mapped s.cfg off.toNat ∨ off = 0x000#11) :
    readAccess off width s = returnData 0#32 (raiseFault .bus s) := by
  refine readAccess_of_error fun r hr => ?_
  obtain ⟨hwidth, haligned, hmapped, hcmd⟩ := (checkAccess_read_ok_iff s.cfg off width).1 ⟨r, hr⟩
  rcases h with h | h | h | h
  · exact h hwidth
  · exact h haligned
  · exact h hmapped
  · exact hcmd h

theorem exec_rd_of_illegal {off : Offset} {width : Nat} {s : State} (hw : s.cfg.wf = true)
    (h : width ≠ 4 ∨ off.toNat % 4 ≠ 0 ∨ ¬ mapped s.cfg off.toNat ∨ off = 0x000#11) :
    exec (.rd off width) s = .next { s with faultBus := true, rdData := 0#32 } := by
  rw [exec_of_wf _ hw, effectOf, readAccess_of_illegal h]
  rfl

theorem exec_rd_of_ok {off : Offset} {width : Nat} {s : State} {r : Reg} (hw : s.cfg.wf = true)
    (h : checkAccess s.cfg .read off width = .ok r) :
    exec (.rd off width) s = .next { s with rdData := regValue s r } := by
  rw [exec_of_wf _ hw, effectOf, readAccess_of_ok h]
  rfl

/-- Settles O25: a legal read names a register other than CMD, whose value `regValue_toNat` gives. -/
theorem readEffect : Obligations.ReadEffect := by
  refine fun s off width hw hbuf hsnap => ⟨exec_rd_of_illegal hw, fun hlegal => ?_⟩
  obtain ⟨r, hok⟩ := (checkAccess_read_ok_iff s.cfg off width).2 hlegal
  obtain ⟨_, _, hreg, hread⟩ := (checkAccess_ok_iff ..).1 hok
  exact ⟨regValue s r, regValue_toNat hw hbuf hsnap hreg ((allows_read_iff r).1 hread), exec_rd_of_ok hw hok⟩

/-! ### The SNAP window -/

/-- The offset of word k of the SNAP window (10_state.md R47). -/
theorem snapOffset_toNat {k : Nat} (hk : k < 256) : (BitVec.ofNat 11 (0x400 + 4 * k)).toNat = 0x400 + 4 * k := by
  rw [BitVec.toNat_ofNat, Nat.mod_eq_of_lt (by omega)]

/-- From 0x400 on no offset names a control register (10_state.md R47). -/
theorem regAt_of_snapWindow {cfg : Config} {off : Offset} (h : 0x400 ≤ off.toNat)
    (hk : (off.toNat - 0x400) / 4 < cfg.nBuf) : regAt cfg off = some (.snap ((off.toNat - 0x400) / 4)) := by
  have hne : ∀ c : Offset, c.toNat < 0x400 → off ≠ c := by
    rintro c hc rfl
    omega
  simp [regAt_eq, hne, h, hk]

theorem checkAccess_snapOffset {cfg : Config} {k : Nat} (hk : k < 256) (hbuf : k < cfg.nBuf) :
    checkAccess cfg .read (BitVec.ofNat 11 (0x400 + 4 * k)) 4 = .ok (.snap k) := by
  have hoff := snapOffset_toNat hk
  have hindex : ((BitVec.ofNat 11 (0x400 + 4 * k)).toNat - 0x400) / 4 = k := by omega
  refine (checkAccess_ok_iff ..).2 ⟨rfl, by omega, ?_, rfl⟩
  rw [regAt_of_snapWindow (by omega) (by omega), hindex]

theorem exec_rd_snapOffset {s : State} {k : Nat} (hw : s.cfg.wf = true) (hk : k < 256) (hbuf : k < s.cfg.nBuf) :
    exec (.rd (BitVec.ofNat 11 (0x400 + 4 * k)) 4) s = .next { s with rdData := s.snap[k]?.getD 0#32 } := by
  rw [exec_rd_of_ok hw (checkAccess_snapOffset hk hbuf), regValue, snapWord, List.getD_eq_getElem?_getD]

/-- Settles O26: below N_BUF the word is SNAP[k] or the 0 beyond it, from N_BUF on the offset is unmapped. -/
theorem snapWindowRead : Obligations.SnapWindowRead := by
  intro s k hw hsnap hk off
  refine ⟨fun v hv => ?_, fun ⟨hbeyond, hbuf⟩ => ?_, fun hbuf => exec_rd_of_illegal hw (.inr (.inr (.inl ?_)))⟩
  · have hlen : k < s.snap.length := (List.getElem?_eq_some_iff.1 hv).1
    rw [exec_rd_snapOffset hw hk (hlen.trans_le hsnap), hv, Option.getD_some]
  · rw [exec_rd_snapOffset hw hk hbuf, List.getElem?_eq_none hbeyond, Option.getD_none]
  · rw [snapOffset_toNat hk, mapped]
    omega

/-! ### Writes -/

/-- A write that is not legal faults, whatever its value (43_host_access.md R211, R217): the offsets of CMD and
CODE are aligned and mapped. -/
theorem writeAccess_of_illegal {off : Offset} {width : Nat} (v : Word) {s : State}
    (h : width ≠ 4 ∨ off.toNat % 4 ≠ 0 ∨ ¬ mapped s.cfg off.toNat ∨ (off ≠ 0x000#11 ∧ off ≠ 0x014#11)) :
    writeAccess off width v s = raiseFault .bus s := by
  rcases writeAccess_cases off width v s with ⟨rfl, rfl, _⟩ | ⟨rfl, rfl, _⟩ | ⟨_, e⟩
  · simp [mapped] at h
  · simp [mapped] at h
  · exact e

theorem writeAccess_cmd (v : Word) (s : State) : writeAccess 0x000#11 4 v s = dispatch v s := by
  rw [dispatch_eq, ← performs_wr_cmd]
  exact (effectOf_performs (.wr 0x000#11 4 v) s).symm

theorem writeAccess_code (v : Word) (s : State) : writeAccess 0x014#11 4 v s = writeCode v s := by
  rcases writeAccess_cases 0x014#11 4 v s with ⟨_, hoff, _⟩ | ⟨_, _, e⟩ | ⟨hn, _⟩
  · exact absurd hoff (by decide)
  · exact e
  · exact absurd ⟨rfl, .inr rfl⟩ hn

/-- Settles O28: one lemma for each case of the write. -/
theorem writeEffect : Obligations.WriteEffect := by
  intro s off width v hw
  rw [exec_of_wf _ hw, effectOf]
  refine ⟨fun hillegal => ?_, ?_, ?_⟩
  · rw [writeAccess_of_illegal v hillegal]
    rfl
  · rintro ⟨rfl, rfl⟩
    rw [writeAccess_code]
    rfl
  · rintro ⟨rfl, rfl⟩
    rw [writeAccess_cmd]

/-! ### Commands -/

theorem exec_nop {s : State} (h : s.cfg.wf = true) : exec .nop s = .next s := exec_of_wf .nop h

/-- The write of an illegal word sets FAULT_CMD and nothing else (43_host_access.md R214). -/
theorem exec_wr_cmd_illegal {s : State} (h : s.cfg.wf = true) {w : Word} (hword : w ∉ legalCommandWords) :
    exec (.wr 0x000#11 4 w) s = .next { s with faultCmd := true } := by
  rw [exec_wr_cmd, decodeCommand_illegal hword, exec_illegal h]

/-- Settles O29: the write runs as the command that its word decodes to. -/
theorem commandWriteDispatches : Obligations.CommandWriteDispatches := by
  refine fun s v hw => ⟨?_, ?_, ?_, ?_, exec_wr_cmd_illegal hw, exec_wr_cmd v s⟩
  · rintro rfl; exact exec_wr_cmd _ s
  · rintro rfl; exact exec_wr_cmd _ s
  · rintro rfl; exact exec_wr_cmd _ s
  · rintro rfl; exact exec_wr_cmd _ s

/-- Settles O30: NOP has no effect, and the word 0 selects NOP. -/
theorem nopChangesNothing : Obligations.NopChangesNothing := fun s hw =>
  ⟨exec_nop hw, (exec_wr_cmd _ s).trans (exec_nop hw)⟩

/-- Settles O31: ILLEGAL raises IllegalCommand, and so does the write of a word that selects it. -/
theorem illegalCommandSetsFaultOnly : Obligations.IllegalCommandSetsFaultOnly := fun _ w hw hword =>
  ⟨exec_illegal hw w, exec_wr_cmd_illegal hw hword⟩

/-! ### Faults -/

theorem captureEdge_faultCmd (now : Tick) (s : State) : (captureEdge now s).faultCmd = s.faultCmd := by
  rw [(captureEdge_writes now s).1]

theorem decodeSnapshot_faultCmd (s : State) : (decodeSnapshot s).faultCmd = s.faultCmd := by
  rw [decodeSnapshot_writes_result s]

theorem readAccess_faultCmd (off : Offset) (width : Nat) (s : State) :
    (readAccess off width s).faultCmd = s.faultCmd := by
  rw [(readAccess_writes off width s).1]

/-- FAULT_CMD has one writer, ILLEGAL, which leaves FAULT_BUS (10_state.md R43). -/
theorem effectOf_faultCmd_of_performs {i : Instr} (h : i.performs = i) (s : State) :
    (effectOf i s).faultCmd = s.faultCmd ∨ ((∃ w, i = .illegal w) ∧ (effectOf i s).faultBus = s.faultBus) := by
  cases i with
  | edge now => exact .inl (captureEdge_faultCmd now s)
  | nop => exact .inl rfl
  | take => exact .inl rfl
  | decode => exact .inl (decodeSnapshot_faultCmd s)
  | resolve => exact .inl rfl
  | illegal word => exact .inr ⟨⟨word, rfl⟩, rfl⟩
  | rd off width => exact .inl (readAccess_faultCmd off width s)
  | wr off width v =>
    left
    rw [effectOf, (writeAccess_writes h s).1]

/-- An operation keeps FAULT_CMD, or it performs an illegal command word and keeps FAULT_BUS. -/
theorem effectOf_faultCmd (i : Instr) (s : State) :
    (effectOf i s).faultCmd = s.faultCmd ∨
      ((∃ w, i.performs = .illegal w) ∧ (effectOf i s).faultBus = s.faultBus) := by
  rw [← effectOf_performs i s]
  exact effectOf_faultCmd_of_performs (performs_performs i) s

/-- Settles O32: `effectOf_faultCmd`, with what the accesses that are not legal do. -/
theorem atMostOneFaultPerOperation : Obligations.AtMostOneFaultPerOperation := by
  intro i s t h
  obtain ⟨_, rfl⟩ := exec_next h
  have hcmd := effectOf_faultCmd i s
  refine ⟨hcmd.imp_right And.right, ?_, ?_, fun hne => (hcmd.resolve_left hne).1⟩
  · rintro off width v rfl hillegal
    rw [effectOf, writeAccess_of_illegal v hillegal]
    exact ⟨rfl, rfl⟩
  · rintro off width rfl
    refine ⟨readAccess_faultCmd off width s, fun hillegal => ?_⟩
    rw [effectOf, readAccess_of_illegal hillegal]
    rfl

end Sys2Proof.Machine
end

section
/-! PROOFS. Exceptions (60_exceptions.md): every operation completes (R230), the block goes on as if a fault had
not occurred (R236), and only reset clears a fault bit (R237). -/

namespace Sys2Proof.Machine

/-! ### Every operation completes -/

/-- Settles O35: under a legal configuration the guard lets every effect through, and `effectOf_frame` says what
no effect touches. -/
theorem everyOperationCompletes : Obligations.EveryOperationCompletes := fun i s hw =>
  ⟨effectOf i s, exec_of_wf i hw, effectOf_frame i s⟩

/-! ### Fault bits are sticky -/

/-- Every fault bit that is set in `s` is set in `t`. -/
def State.KeepsFaults (s t : State) : Prop :=
  (s.faultCmd = true → t.faultCmd = true) ∧ (s.faultBus = true → t.faultBus = true)

/-- Whichever bit a fault sets, the other stays as it is. -/
theorem keepsFaults_raiseFault (cause : FaultCause) (s : State) : s.KeepsFaults (raiseFault cause s) := by
  cases cause with
  | bus => exact ⟨id, fun _ => rfl⟩
  | command => exact ⟨fun _ => rfl, id⟩

/-- An operation's writes, listed case by case, never clear a fault bit (10_state.md R43). -/
theorem keepsFaults_effectOf_of_performs {i : Instr} (h : i.performs = i) (s : State) :
    s.KeepsFaults (effectOf i s) := by
  cases i with
  | edge now =>
    change s.KeepsFaults (captureEdge now s)
    rw [(captureEdge_writes now s).1]
    exact ⟨id, id⟩
  | nop => exact ⟨id, id⟩
  | take => exact ⟨id, id⟩
  | decode =>
    change s.KeepsFaults (decodeSnapshot s)
    rw [decodeSnapshot_writes_result s]
    exact ⟨id, id⟩
  | resolve => exact ⟨id, id⟩
  | illegal word => exact keepsFaults_raiseFault .command s
  | rd off width => exact ⟨(readAccess_faultCmd off width s).trans, (readAccess_writes off width s).2⟩
  | wr off width v =>
    change s.KeepsFaults (writeAccess off width v s)
    rcases writeAccess_cases_of_performs h s with ⟨_, _, e⟩ | e <;> rw [e]
    · exact ⟨id, id⟩
    · exact keepsFaults_raiseFault .bus s

theorem keepsFaults_effectOf (i : Instr) (s : State) : s.KeepsFaults (effectOf i s) := by
  rw [← effectOf_performs i s]
  exact keepsFaults_effectOf_of_performs (performs_performs i) s

/-- A step keeps the fault bits that are set, or it is a reset. -/
theorem keepsFaults_or_reset_of_step {s t : State} (h : step s = .next t) :
    s.KeepsFaults t ∨ ∃ e rest, s.arrivals = ⟨e, .reset⟩ :: rest := by
  obtain ⟨_, ⟨_, rfl⟩ | ⟨⟨e, ev⟩, rest, hp, ⟨rfl, _⟩ | ⟨_, i, _, _, rfl⟩⟩⟩ := step_cases h
  · exact .inl ⟨id, id⟩
  · exact .inr ⟨e, rest, hp⟩
  · exact .inl (keepsFaults_effectOf i (takeArrival e rest s))

/-- Settles O33: `keepsFaults_or_reset_of_step`, and the reset input is `assertReset`, which clears both bits. -/
theorem onlyResetClearsFaults : Obligations.OnlyResetClearsFaults := by
  refine ⟨fun s t h hcleared => ?_, fun s e rest hw hp => ⟨_, step_arrival hw hp, rfl, rfl⟩, fun s => ?_⟩
  · obtain ⟨hcmd, hbus⟩ | hreset := keepsFaults_or_reset_of_step h
    · rcases hcleared with ⟨hset, hclear⟩ | ⟨hset, hclear⟩
      · exact absurd (hcmd hset) (Bool.eq_false_iff.1 hclear)
      · exact absurd (hbus hset) (Bool.eq_false_iff.1 hclear)
    · exact hreset
  · exact Bool.or_eq_true_iff

/-! ### The block goes on as if a fault had not occurred -/

/-- A state change whose result, fault bits apart, does not depend on the fault bits (60_exceptions.md R236). -/
def FaultBlind (f : State → State) : Prop := ∀ s, (f s.eraseFaults).eraseFaults = (f s).eraseFaults

theorem faultBlind_raiseFault (cause : FaultCause) : FaultBlind (raiseFault cause) := by
  cases cause <;> exact fun _ => rfl

/-- An edge neither reads nor writes a fault bit, so clearing the bits is apart from it. -/
theorem apart_eraseFaults : ApartFromEdge State.eraseFaults := by
  constructor <;> intros <;> rfl

theorem faultBlind_captureEdge (now : Tick) : FaultBlind (captureEdge now) := fun s => by
  rw [captureEdge_of_apart apart_eraseFaults]
  rfl

/-- DECODE's verdict is of the parameters and SNAP (41_decoder.md R153). -/
theorem faultBlind_decodeSnapshot : FaultBlind decodeSnapshot := fun s => by
  obtain ⟨o, i, c, h⟩ := decodeSnapshot_writes s.cfg s.snap
  rw [h s rfl rfl, h s.eraseFaults rfl rfl]
  rfl

/-- No register but STATUS shows a fault bit (10_state.md R48). -/
theorem regValue_eraseFaults (s : State) {r : Reg} (hr : r ≠ .status) : regValue s.eraseFaults r = regValue s r := by
  cases r with
  | status => exact absurd rfl hr
  | _ => rfl

theorem faultBlind_readAccess {off : Offset} {width : Nat} (h : Instr.rd off width ≠ .rd 0x004#11 4) :
    FaultBlind (readAccess off width) := fun s => by
  rcases readAccess_cases off width s with ⟨r, hr, e⟩ | ⟨hbad, e⟩ <;> rw [e]
  · obtain ⟨rfl, _, hreg, _⟩ := (checkAccess_ok_iff ..).1 hr
    have hstatus : r ≠ .status := by
      rintro rfl
      exact h (by rw [(regAt_status_iff ..).1 hreg])
    rw [readAccess_of_ok (s := s.eraseFaults) hr, regValue_eraseFaults s hstatus]
    rfl
  · rw [readAccess_of_error (s := s.eraseFaults) hbad]
    rfl

theorem faultBlind_dispatch (v : Word) : FaultBlind (dispatch v) := fun s => by
  unfold dispatch
  split_ifs
  · rfl
  · rfl
  · exact faultBlind_decodeSnapshot s
  · rfl
  · exact faultBlind_raiseFault .command s

theorem faultBlind_writeAccess (off : Offset) (width : Nat) (v : Word) : FaultBlind (writeAccess off width v) := by
  cases hcmd : isCommandWrite off width with
  | true =>
    obtain ⟨rfl, rfl⟩ := (isCommandWrite_iff off width).1 hcmd
    rw [funext (writeAccess_cmd v)]
    exact faultBlind_dispatch v
  | false =>
    rcases writeAccess_of_not_command hcmd v with e | e <;> rw [e]
    · exact fun _ => rfl
    · exact faultBlind_raiseFault .bus

/-- Every operation but the legal read of STATUS is blind to the fault bits. -/
theorem faultBlind_effectOf {i : Instr} (h : i ≠ .rd 0x004#11 4) : FaultBlind (effectOf i) := by
  cases i with
  | edge now => exact faultBlind_captureEdge now
  | nop => exact fun _ => rfl
  | take => exact fun _ => rfl
  | decode => exact faultBlind_decodeSnapshot
  | resolve => exact fun _ => rfl
  | illegal word => exact faultBlind_raiseFault .command
  | rd off width => exact faultBlind_readAccess h
  | wr off width v => exact faultBlind_writeAccess off width v

/-- Settles O34: clearing the fault bits leaves the configuration legal, and the effect is blind to them. -/
theorem faultsDoNotChangeBehaviour : Obligations.FaultsDoNotChangeBehaviour := by
  intro i s t hstatus h
  obtain ⟨hw, rfl⟩ := exec_next h
  exact ⟨effectOf i s.eraseFaults, exec_of_wf i hw, faultBlind_effectOf hstatus s⟩

end Sys2Proof.Machine
end

section
/-! PROOFS. Reset and hazards (70_reset_and_hazards.md): every element's value after reset (R270, R271), what
the register window then reads (R272), and RESOLVE after a DECODE that failed (R277). -/

namespace Sys2Proof.Machine

/-! ### The state after reset -/

/-- A state that power-on or the reset input leaves, with anything to arrive and anything last read (log entry 13). -/
def afterReset (cfg : Config) (k : Tick) (arrivals : List Arrival) (lastRead : Word) : State :=
  { State.resetWith cfg k with arrivals := arrivals, rdData := lastRead }

/-- The reset input keeps the parameters, the arrivals behind it and the value last read, and TICKS counts the
time that passed before it. -/
theorem step_reset {s : State} (hw : s.cfg.wf = true) {e : Nat} {rest : List Arrival}
    (hp : s.arrivals = ⟨e, .reset⟩ :: rest) :
    step s = .next (afterReset s.cfg (ticksAfter s.cfg s.ticks e) rest s.rdData) :=
  step_arrival hw hp

/-- Settles O1: `step_reset` names the state that the reset input leaves, and `resetWith` is the one of power-on. -/
theorem resetGivesEveryElementItsResetValue : Obligations.ResetGivesEveryElementItsResetValue := by
  refine ⟨fun s e rest hw hp => ⟨_, step_reset hw hp, ?_⟩, fun cfg k => ?_⟩
  · simp [afterReset, State.cnt, State.snapCount, ticksAfter_toNat hw s.ticks e]
  · simp [State.cnt, State.snapCount]

/-! ### The register window after reset -/

section
variable {cfg : Config} (k : Tick) (arrivals : List Arrival) (lastRead : Word)

/-- After reset every register but INFO holds 0. -/
theorem windowNumber_afterReset {n : Nat} (hinfo : n ≠ 0x020) :
    windowNumber (afterReset cfg k arrivals lastRead) n = 0 := by
  unfold windowNumber
  split_ifs <;> rfl

/-- The premises of `readEffect` are met after reset: COUNT and SNAP_COUNT are 0. -/
theorem exec_rd_afterReset (hw : cfg.wf = true) {off : Offset} (ha : off.toNat % 4 = 0)
    (hm : mapped cfg off.toNat) (hcmd : off ≠ 0x000#11) :
    ∃ v : Word, v.toNat = windowNumber (afterReset cfg k arrivals lastRead) off.toNat
      ∧ exec (.rd off 4) (afterReset cfg k arrivals lastRead) = .next (afterReset cfg k arrivals v) :=
  (readEffect (afterReset cfg k arrivals lastRead) off 4 hw (Nat.zero_le _) (Nat.zero_le _)).2 ⟨rfl, ha, hm, hcmd⟩

/-- Every legal read after reset but that of INFO returns 0. -/
theorem exec_rd_afterReset_zero (hw : cfg.wf = true) {off : Offset} (ha : off.toNat % 4 = 0)
    (hm : mapped cfg off.toNat) (hcmd : off ≠ 0x000#11) (hinfo : off.toNat ≠ 0x020) :
    exec (.rd off 4) (afterReset cfg k arrivals lastRead) = .next (afterReset cfg k arrivals 0#32) := by
  obtain ⟨v, hv, hread⟩ := exec_rd_afterReset k arrivals lastRead hw ha hm hcmd
  rw [windowNumber_afterReset k arrivals lastRead hinfo] at hv
  obtain rfl : v = 0#32 := BitVec.eq_of_toNat_eq hv
  exact hread

end

/-- The registers from STATUS to DIST lie in the lower mapped range, and none of them is CMD or INFO. -/
theorem status_to_dist_legal :
    ∀ off ∈ [0x004#11, 0x008#11, 0x00C#11, 0x010#11, 0x014#11, 0x018#11, 0x01C#11],
      off.toNat % 4 = 0 ∧ off.toNat ≤ 0x020 ∧ off ≠ 0x000#11 ∧ off.toNat ≠ 0x020 := by decide

/-- Settles O2: each of these reads is legal, and its register's number is 0, or N_BUF and K for INFO. -/
theorem windowAfterReset : Obligations.WindowAfterReset := by
  intro cfg k arrivals lastRead hw s
  refine ⟨fun off hoff => ?_, ?_, fun n hn => ?_⟩
  · obtain ⟨ha, hm, hcmd, hinfo⟩ := status_to_dist_legal off hoff
    exact exec_rd_afterReset_zero k arrivals lastRead hw ha (.inl hm) hcmd hinfo
  · exact exec_rd_afterReset k arrivals lastRead hw (off := 0x020#11) (by decide) (.inl (by decide)) (by decide)
  · have hnBuf := (wf_nBuf hw).2
    have hoff := snapOffset_toNat (k := n) (by omega)
    have hcmd : BitVec.ofNat 11 (0x400 + 4 * n) ≠ 0x000#11 := by
      rw [← BitVec.toNat_ne_iff_ne, hoff, BitVec.toNat_ofNat]
      omega
    exact exec_rd_afterReset_zero k arrivals lastRead hw (by omega) (.inr (by omega)) hcmd (by omega)

/-! ### RESOLVE after a failed DECODE -/

/-- From code 0 the distance to an entry is the entry's own code (42_resolver.md R192). -/
theorem keyDistance_zero (e : KeyEntry) : keyDistance 0#32 e = e.code.toNat := by
  rw [keyDistance, BitVec.toNat_ofNat]
  omega

/-- Settles O24: the failed DECODE leaves CODE 0 and the table as it is, so RESOLVE answers the first entry
nearest to 0, at the distance of that entry's code. -/
theorem resolveAfterFailedDecode : Obligations.ResolveAfterFailedDecode := by
  intro s o i hw hf
  obtain ⟨k, e, kw, dw, hnear, hkey, hdist, hresolve⟩ :=
    resolveFindsFirstNearest { s with outcome := o, failIndex := BitVec.ofNat 7 i, code := 0#32 } hw
  have hcode : dw = e.code := BitVec.eq_of_toNat_eq (hdist.trans (keyDistance_zero e))
  exact ⟨_, k, e, _, decodeReportsFirstFailure s o i hw hf, rfl, hnear, hresolve, hkey, hcode⟩

end Sys2Proof.Machine
end
